-- ==== Sys2Proof/Word.lean ====
section
/-! DEFINITION. The word types of the LLF block and the record of four like things (one per channel,
one per converter step, one per PWM line). -/

namespace Sys2Proof

/-- An operation word or a FIFO word, 32 bits (30_encoding.md R60, R65). -/
abbrev Word := BitVec 32
/-- A byte of the register window (20_memory.md R42). -/
abbrev Byte := BitVec 8
/-- A raw sample, 0..4095 (00_scope.md R4, `SAMPLE_MAX`). -/
abbrev Sample := BitVec 12
/-- The time input and the timestamps, 64 bits (10_state.md R36). -/
abbrev Time := BitVec 64
/-- A channel, a converter step or a PWM line: 0..3 (00_scope.md R4, `NCH`). -/
abbrev Chan := Fin 4

/-- Four like things, one per channel: the shape `x[c]`, c = 0..3, of 10_state.md. -/
structure Quad (α : Type) where
  c0 : α
  c1 : α
  c2 : α
  c3 : α
  deriving DecidableEq, Repr

/-- The read `x[c]` of 00_scope.md R8. -/
def Quad.get {α : Type} (q : Quad α) : Chan → α
  | 0 => q.c0
  | 1 => q.c1
  | 2 => q.c2
  | 3 => q.c3

/-- The write `x[c] <- v` of 00_scope.md R8. -/
def Quad.set {α : Type} (q : Quad α) (c : Chan) (v : α) : Quad α :=
  match c with
  | 0 => { q with c0 := v }
  | 1 => { q with c1 := v }
  | 2 => { q with c2 := v }
  | 3 => { q with c3 := v }

/-- The same value for every channel. -/
def Quad.fill {α : Type} (v : α) : Quad α := ⟨v, v, v, v⟩

/-- The record whose element `c` is `f c`. -/
def Quad.ofFn {α : Type} (f : Chan → α) : Quad α := ⟨f 0, f 1, f 2, f 3⟩

/-- Every element through `f`. -/
def Quad.map {α β : Type} (f : α → β) (q : Quad α) : Quad β := ⟨f q.c0, f q.c1, f q.c2, f q.c3⟩

/-- The four elements, channel 0 first. -/
def Quad.toList {α : Type} (q : Quad α) : List α := [q.c0, q.c1, q.c2, q.c3]

end Sys2Proof
end

