-- ==== Sys2Proof/Config.lean ====
section
/-! DEFINITION. What an implementation of the LLF block fixes: the constants the spec gives, the
parameters it names (a record the machine takes as an argument, held constant in State), their
constraints, the reference set P0, and the free values. -/

namespace Sys2Proof

namespace Config

/-- `OFF_T`, the off-threshold (00_scope.md R4). -/
def offT : Nat := 10
/-- `ON_T`, the on-threshold (00_scope.md R4). -/
def onT : Nat := 4000
/-- `COOLDOWN_MS`, the interval of both throttles, in time units (00_scope.md R4, 43_auto_mode.md R131). -/
def cooldown : Nat := 5000
/-- The largest clock divider (00_scope.md R4, 90_conflicts.md C1). -/
def clkDivMax : Nat := 65534

/-- Free value: the n-th 32-bit word the spec calls "any value" (10_state.md R18, 20_memory.md R43, R45;
log 10). Nothing constrains it. -/
opaque freeWord : Nat → BitVec 32
/-- Free value: the n-th unconstrained number (an answer of the random source beyond the injected ones, log 9;
how far past its lower bound a wait ends, log 11; a 64-bit count past its width, log 19). -/
opaque freeNat : Nat → Nat

end Config

/-- The parameters of 00_scope.md R4 and R5: "Each is a named parameter the model takes as an argument".
No operation writes them. -/
structure Params where
  /-- `WIN_SIZE` -/
  winSize : Nat
  /-- `WIN_BASE`, any value; no rule reads it (20_memory.md R49; its value in `Params.p0` is log 27). -/
  winBase : Nat
  offClkctrl : Nat
  offCtrl : Nat
  offClkdiv : Nat
  offStepen : Nat
  offStepcfg : Quad Nat
  offStepdly : Quad Nat
  offFifocnt : Nat
  offFifodata : Nat
  /-- `DATA_LO`, `TAG_LO`, `TAG_W` of the FIFO word (30_encoding.md R65). -/
  dataLo : Nat
  tagLo : Nat
  tagW : Nat
  /-- `FIFO_DEPTH` -/
  fifoDepth : Nat
  /-- `INSEL[k]` -/
  inSel : Quad (BitVec 4)
  /-- `SAMPLE_DELAY` -/
  sampleDelay : Byte
  /-- `SETTLE_DELAY`, in time units -/
  settleDelay : Nat
  /-- `CLK_WAIT_MAX`, in polls; `none` is the spec's ∞ (41_adc_controller.md R95). -/
  clkWaitMax : Option Nat
  /-- `FIXED_STEP` -/
  fixedStep : Nat
  /-- `OFFSET_LIMIT_MAX` -/
  offsetLimitMax : Nat
  fracNum : Nat
  fracDen : Nat
  probNum : Nat
  probDen : Nat
  capNum : Nat
  capDen : Nat
  /-- `SPEED_TABLE`: the entries (upper bound, magnitude) (43_auto_mode.md R124). -/
  speedTable : List (Nat × Nat)
  /-- `PWM_PERIOD` -/
  pwmPeriod : Nat
  /-- `DUTY_FLOOR` -/
  dutyFloor : Nat
  /-- `DUTY_CEIL` -/
  dutyCeil : Nat
  curveNum : Nat
  curveDen : Nat
  /-- `BUDGET` -/
  budget : Nat
  /-- `INIT_SAMPLE` -/
  initSample : Sample
  /-- The time unit: one unit of `now`, in nanoseconds. No rule reads it: every interval, `COOLDOWN_MS` included, is
  given in time units (00_scope.md R5, 92_eei_decisions.md D29; the nanoseconds are log 28). -/
  timeUnit : Nat
  deriving DecidableEq, Repr

/-- The twelve register offsets of the window (00_scope.md R5). -/
def Params.offsets (p : Params) : List Nat :=
  [p.offClkctrl, p.offCtrl, p.offClkdiv, p.offStepen] ++ p.offStepcfg.toList ++ p.offStepdly.toList ++
    [p.offFifocnt, p.offFifodata]

/-- The register window: offsets distinct, multiples of 4, inside the window (00_scope.md R5). -/
abbrev Params.WindowLegal (p : Params) : Prop :=
  0 < p.winSize ∧ p.winSize ≤ 65536 ∧ p.offsets.Nodup ∧ ∀ o ∈ p.offsets, o % 4 = 0 ∧ o + 3 < p.winSize

/-- The FIFO: its depth (00_scope.md R5), and a data word whose two fields lie inside 32 bits and do not overlap
(30_encoding.md R65; DEDUCED, log 2). -/
abbrev Params.FifoLegal (p : Params) : Prop :=
  4 ≤ p.fifoDepth ∧ p.fifoDepth ≤ 255 ∧ 2 ≤ p.tagW ∧ p.tagLo + p.tagW ≤ 32 ∧ p.dataLo + 12 ≤ 32 ∧
    (p.dataLo + 12 ≤ p.tagLo ∨ p.tagLo + p.tagW ≤ p.dataLo)

/-- The speed table of 43_auto_mode.md R124. -/
abbrev Params.SpeedLegal (p : Params) : Prop :=
  (p.speedTable.getLast?).map Prod.fst = some 4096 ∧
    p.speedTable.Pairwise (fun a b => a.1 < b.1 ∧ b.2 ≤ a.2) ∧
    ∀ e ∈ p.speedTable, 0 < e.1 ∧ 1 ≤ e.2 ∧ e.2 < 2 ^ 32

/-- The auto-mode engine's parameters (00_scope.md R5; the upper bounds of the step and of the poll count are
DEDUCED from 00_scope.md R7, log 2). -/
abbrev Params.EngineLegal (p : Params) : Prop :=
  1 ≤ p.fixedStep ∧ p.fixedStep ≤ 32767 ∧ 1 ≤ p.offsetLimitMax ∧ p.offsetLimitMax ≤ 32767 ∧
    0 < p.fracNum ∧ p.fracNum ≤ p.fracDen ∧ p.probNum ≤ p.probDen ∧ 1 ≤ p.probDen ∧ 1 ≤ p.capDen ∧
    (∀ m ∈ p.clkWaitMax, 1 ≤ m ∧ m < 2 ^ 32)

/-- The duty controller's parameters (00_scope.md R5). -/
abbrev Params.DutyLegal (p : Params) : Prop :=
  0 < p.pwmPeriod ∧ p.pwmPeriod < 2 ^ 32 ∧ p.dutyFloor ≤ p.dutyCeil ∧ p.dutyCeil < p.pwmPeriod ∧
    1 ≤ p.curveDen ∧ 0 < p.budget ∧ p.budget < 2 ^ 32

/-- Every constraint 00_scope.md R5 and 43_auto_mode.md R124 put on the parameters. -/
abbrev Params.Legal (p : Params) : Prop :=
  p.WindowLegal ∧ p.FifoLegal ∧ p.SpeedLegal ∧ p.EngineLegal ∧ p.DutyLegal

/-- The reference set P0 of 00_scope.md R5 and 43_auto_mode.md R124: the spec's own, for test vectors only. One value is
the model's and not the spec's: P0 gives `WIN_BASE` none ("not used by any rule"), and 0 stands here (DESIGN CHOICE,
log 27). The time unit is P0's 1 ms, counted in nanoseconds (log 28). -/
def Params.p0 : Params where
  winSize := 0x40
  winBase := 0
  offClkctrl := 0x00
  offCtrl := 0x04
  offClkdiv := 0x08
  offStepen := 0x0C
  offStepcfg := ⟨0x10, 0x18, 0x20, 0x28⟩
  offStepdly := ⟨0x14, 0x1C, 0x24, 0x2C⟩
  offFifocnt := 0x30
  offFifodata := 0x34
  dataLo := 0
  tagLo := 16
  tagW := 4
  fifoDepth := 64
  inSel := ⟨0, 1, 2, 3⟩
  sampleDelay := 0
  settleDelay := 1
  clkWaitMax := some 1000
  fixedStep := 8
  offsetLimitMax := 1000
  fracNum := 1
  fracDen := 4
  probNum := 1
  probDen := 10
  capNum := 1
  capDen := 2
  speedTable := [(512, 64), (1024, 32), (2048, 16), (3072, 8), (4096, 4)]
  pwmPeriod := 1000000
  dutyFloor := 1000
  dutyCeil := 999000
  curveNum := 1
  curveDen := 16
  budget := 2000000
  initSample := 0
  timeUnit := 1000000

end Sys2Proof
end

