-- ==== Sys2Proof/Syntax.lean ====
section
/-! DEFINITION. The thirty operations of 30_encoding.md R62 as one inductive, the pseudo-operations of R71,
and the lines of assembler source of R70. -/

namespace Sys2Proof

/-- One constructor per row of the opcode map (30_encoding.md R62). The operand fields are exactly as wide as
30_encoding.md R60 makes them, so every operand value an encoding admits is a term, and no other. -/
inductive Instr where
  /-- `OPEN` (40_register_interface.md R80) -/
  | openMap
  /-- `RDB off` (R81) -/
  | rdb (off : BitVec 16)
  /-- `WRB off, val` (R82) -/
  | wrb (off : BitVec 16) (val : Byte)
  /-- `RDFIFO` (R83) -/
  | rdfifo
  /-- `CLOSE` (R84) -/
  | closeMap
  /-- `ADCINIT` (41_adc_controller.md R95) -/
  | adcinit
  /-- `ADCDRAIN` (R96) -/
  | adcdrain
  /-- `ADCTRIG mask` (R98) -/
  | adctrig (mask : BitVec 4)
  /-- `ADCSETTLE` (R99) -/
  | adcsettle
  /-- `ADCHARV` (R100) -/
  | adcharv
  /-- `ADCSTOP` (R101) -/
  | adcstop
  /-- `ADCSHUT` (R102) -/
  | adcshut
  /-- `MEDU.R ch` (42_median_filter.md R113) -/
  | meduR (ch : Chan)
  /-- `MEDU.I ch, imm12` (R114) -/
  | meduI (ch : Chan) (imm : BitVec 12)
  /-- `MODEDET` (43_auto_mode.md R121) -/
  | modedet
  /-- `RATEUPD` (R126) -/
  | rateupd
  /-- `AUTOSTEP ch` (R127) -/
  | autostep (ch : Chan)
  /-- `CHINIT` (R134) -/
  | chinit
  /-- `DCRV.R ch` (44_duty_controller.md R142) -/
  | dcrvR (ch : Chan)
  /-- `DCRV.I ch, imm16` (R143) -/
  | dcrvI (ch : Chan) (imm : BitVec 16)
  /-- `DNORM` (R144) -/
  | dnorm
  /-- `PWMAPPLY ch` (R145) -/
  | pwmapply (ch : Chan)
  /-- `PWMACQ` (R146) -/
  | pwmacq
  /-- `PWMREL` (R147) -/
  | pwmrel
  /-- `CFGCHK` (45_sequencer.md R152) -/
  | cfgchk
  /-- `JMP tgt` (R153) -/
  | jmp (tgt : BitVec 16)
  /-- `BSTOP tgt` (R154) -/
  | bstop (tgt : BitVec 16)
  /-- `SLEEP` (R155) -/
  | sleep
  /-- `DBGLINE` (R157) -/
  | dbgline
  /-- `HALT` (R156) -/
  | halt
  deriving DecidableEq, Repr

/-- The mnemonic of 30_encoding.md R62; `.R` and `.I` are part of it (R70). -/
def Instr.mnemonic : Instr → String
  | .openMap => "OPEN"
  | .rdb _ => "RDB"
  | .wrb _ _ => "WRB"
  | .rdfifo => "RDFIFO"
  | .closeMap => "CLOSE"
  | .adcinit => "ADCINIT"
  | .adcdrain => "ADCDRAIN"
  | .adctrig _ => "ADCTRIG"
  | .adcsettle => "ADCSETTLE"
  | .adcharv => "ADCHARV"
  | .adcstop => "ADCSTOP"
  | .adcshut => "ADCSHUT"
  | .meduR _ => "MEDU.R"
  | .meduI _ _ => "MEDU.I"
  | .modedet => "MODEDET"
  | .rateupd => "RATEUPD"
  | .autostep _ => "AUTOSTEP"
  | .chinit => "CHINIT"
  | .dcrvR _ => "DCRV.R"
  | .dcrvI _ _ => "DCRV.I"
  | .dnorm => "DNORM"
  | .pwmapply _ => "PWMAPPLY"
  | .pwmacq => "PWMACQ"
  | .pwmrel => "PWMREL"
  | .cfgchk => "CFGCHK"
  | .jmp _ => "JMP"
  | .bstop _ => "BSTOP"
  | .sleep => "SLEEP"
  | .dbgline => "DBGLINE"
  | .halt => "HALT"

/-- The operands as written in assembler source, in the order of 30_encoding.md R62. -/
def Instr.operands : Instr → List Nat
  | .rdb off => [off.toNat]
  | .wrb off val => [off.toNat, val.toNat]
  | .adctrig mask => [mask.toNat]
  | .meduR ch => [ch.val]
  | .meduI ch imm => [ch.val, imm.toNat]
  | .autostep ch => [ch.val]
  | .dcrvR ch => [ch.val]
  | .dcrvI ch imm => [ch.val, imm.toNat]
  | .pwmapply ch => [ch.val]
  | .jmp tgt => [tgt.toNat]
  | .bstop tgt => [tgt.toNat]
  | .openMap => []
  | .rdfifo => []
  | .closeMap => []
  | .adcinit => []
  | .adcdrain => []
  | .adcsettle => []
  | .adcharv => []
  | .adcstop => []
  | .adcshut => []
  | .modedet => []
  | .rateupd => []
  | .chinit => []
  | .dnorm => []
  | .pwmacq => []
  | .pwmrel => []
  | .cfgchk => []
  | .sleep => []
  | .dbgline => []
  | .halt => []

/-- The pseudo-operations of 30_encoding.md R71. -/
inductive Pseudo where
  | readch (mask : BitVec 4)
  | medall
  | autoall
  | dutyall
  | iter
  | shutdown
  deriving DecidableEq, Repr

/-- The expansion of `READCH mask` (30_encoding.md R71). -/
def Pseudo.readchOps (mask : BitVec 4) : List Instr :=
  [.adcdrain, .adctrig mask, .adcsettle, .adcharv, .adcstop]
/-- The expansion of `MEDALL`. -/
def Pseudo.medallOps : List Instr := [.meduR 0, .meduR 1, .meduR 2, .meduR 3]
/-- The expansion of `AUTOALL`. -/
def Pseudo.autoallOps : List Instr := [.rateupd, .autostep 0, .autostep 1, .autostep 2, .autostep 3]
/-- The expansion of `DUTYALL`. -/
def Pseudo.dutyallOps : List Instr :=
  [.dcrvR 0, .dcrvR 1, .dcrvR 2, .dcrvR 3, .dnorm, .pwmapply 0, .pwmapply 1, .pwmapply 2, .pwmapply 3]

/-- "each is exactly the listed sequence" (30_encoding.md R71). -/
def Pseudo.expand : Pseudo → List Instr
  | .readch mask => readchOps mask
  | .medall => medallOps
  | .autoall => autoallOps
  | .dutyall => dutyallOps
  | .iter => readchOps 0xF ++ [.modedet] ++ medallOps ++ autoallOps ++ dutyallOps
  | .shutdown => [.adcshut, .pwmrel, .closeMap]

/-- An operand of a source line: a number, or a label standing for a `TGT16` (30_encoding.md R70). -/
inductive Operand where
  | num (n : Nat)
  | label (name : String)
  deriving DecidableEq, Repr

/-- A line of assembler source (30_encoding.md R70): a label on a line of its own, or a mnemonic (an operation's
or a pseudo-operation's) with its operands. -/
inductive SourceLine where
  | label (name : String)
  | op (mnemonic : String) (operands : List Operand)
  deriving DecidableEq, Repr

end Sys2Proof
end

