-- ==== Sys2Proof/WellFormed.lean ====
section
/-! DEFINITION. Which source lines and instructions are well formed: a known mnemonic, the operands of its
format, each inside its field (30_encoding.md R60, R61, R70). -/

namespace Sys2Proof

/-- The operand fields of 30_encoding.md R60. -/
inductive OperandKind where
  | off16
  | val8
  | mask4
  | ch
  | imm12
  | imm16
  | tgt16
  deriving DecidableEq, Repr

/-- How many values the field holds: all fields are unsigned and used as they stand (30_encoding.md R61). -/
def OperandKind.bound : OperandKind → Nat
  | .off16 => 65536
  | .val8 => 256
  | .mask4 => 16
  | .ch => 4
  | .imm12 => 4096
  | .imm16 => 65536
  | .tgt16 => 65536

/-- The operand fields of the format each operation uses (30_encoding.md R60, R62), and `READCH`'s mask (R71). -/
def operandKinds : List (String × List OperandKind) :=
  [("OPEN", []), ("RDB", [.off16]), ("WRB", [.off16, .val8]), ("RDFIFO", []), ("CLOSE", [])] ++
    [("ADCINIT", []), ("ADCDRAIN", []), ("ADCTRIG", [.mask4]), ("ADCSETTLE", []), ("ADCHARV", []),
      ("ADCSTOP", []), ("ADCSHUT", [])] ++
    [("MEDU.R", [.ch]), ("MEDU.I", [.ch, .imm12])] ++
    [("MODEDET", []), ("RATEUPD", []), ("AUTOSTEP", [.ch]), ("CHINIT", [])] ++
    [("DCRV.R", [.ch]), ("DCRV.I", [.ch, .imm16]), ("DNORM", []), ("PWMAPPLY", [.ch]), ("PWMACQ", []),
      ("PWMREL", [])] ++
    [("CFGCHK", []), ("JMP", [.tgt16]), ("BSTOP", [.tgt16]), ("SLEEP", []), ("DBGLINE", []), ("HALT", [])] ++
    [("READCH", [.mask4]), ("MEDALL", []), ("AUTOALL", []), ("DUTYALL", []), ("ITER", []), ("SHUTDOWN", [])]

/-- One operand in its field: a number below the field's bound, or a defined label where a target stands
(30_encoding.md R70). -/
def Operand.fits (labels : List String) (k : OperandKind) : Operand → Bool
  | .num n => decide (n < k.bound)
  | .label name => decide (k = .tgt16) && labels.contains name

/-- The operands against the fields of the format: as many as fields, each in its own. -/
def operandsFit (labels : List String) : List OperandKind → List Operand → Bool
  | [], [] => true
  | k :: ks, o :: os => o.fits labels k && operandsFit labels ks os
  | _, _ => false

/-- A well-formed line, given the labels the source defines. -/
def SourceLine.wellFormed (labels : List String) : SourceLine → Bool
  | .label _ => true
  | .op m ops =>
    match operandKinds.find? (fun row => row.1 == m) with
    | some row => operandsFit labels row.2 ops
    | none => false

/-- The labels a source defines, in order. -/
def sourceLabels (src : List SourceLine) : List String :=
  src.filterMap fun
    | .label name => some name
    | .op _ _ => none

/-- A well-formed source: every line is, and no label is defined twice. -/
def sourceWellFormed (src : List SourceLine) : Bool :=
  decide (sourceLabels src).Nodup && src.all (fun l => l.wellFormed (sourceLabels src))

/-- The instruction as a source line. -/
def Instr.sourceLine (i : Instr) : SourceLine := .op i.mnemonic (i.operands.map .num)

/-- The instruction's operands fit the fields of its format. Instr's operand types are as wide as the fields, so
this holds of every term (Laws/PerInstr.lean); the checks themselves bite on source lines. -/
def Instr.wellFormed (i : Instr) : Bool := i.sourceLine.wellFormed []

end Sys2Proof
end

