-- ==== Sys2Proof/Decode.lean ====
section
/-! DEFINITION. The decoder of operation words, the encoder, the opcode map as a table, and the assembler
(30_encoding.md R60 to R63, R68, R70, R71). -/

namespace Sys2Proof

/-- Why a word is illegal (30_encoding.md R68). -/
inductive DecodeReject where
  /-- bits 31:24 are none of the 30 opcode values -/
  | unassignedOpcode
  /-- a bit the format calls zero is 1 -/
  | mustBeZero
  deriving DecidableEq, Repr

/-! The fields of 30_encoding.md R60. -/

def opcOf (w : Word) : BitVec 8 := w.extractLsb' 24 8
def off16Of (w : Word) : BitVec 16 := w.extractLsb' 8 16
def val8Of (w : Word) : BitVec 8 := w.extractLsb' 0 8
def mask4Of (w : Word) : BitVec 4 := w.extractLsb' 0 4
def chOf (w : Word) : Chan := (w.extractLsb' 22 2).toFin
def imm12Of (w : Word) : BitVec 12 := w.extractLsb' 0 12
def imm16Of (w : Word) : BitVec 16 := w.extractLsb' 0 16
def tgt16Of (w : Word) : BitVec 16 := w.extractLsb' 0 16

/-- Accept `i` when the word's must-be-zero bits `z` are 0 (30_encoding.md R60, R68). -/
def whenZero {n : Nat} (z : BitVec n) (i : Instr) : Except DecodeReject Instr :=
  if z = 0#n then .ok i else .error .mustBeZero

/-- Format Z: zero 23:0. -/
def decodeZ (w : Word) (i : Instr) : Except DecodeReject Instr := whenZero (w.extractLsb' 0 24) i
/-- Format C: CH 23:22; zero 21:0. -/
def decodeC (w : Word) (f : Chan → Instr) : Except DecodeReject Instr := whenZero (w.extractLsb' 0 22) (f (chOf w))
/-- Format J: zero 23:16; TGT16 15:0. -/
def decodeJ (w : Word) (f : BitVec 16 → Instr) : Except DecodeReject Instr :=
  whenZero (w.extractLsb' 16 8) (f (tgt16Of w))

/-- The decoder (30_encoding.md R63): total on words, a word that matches no row is rejected. -/
def decode (w : Word) : Except DecodeReject Instr :=
  match (opcOf w).toNat with
  | 0x10 => decodeZ w .openMap
  | 0x11 => whenZero (w.extractLsb' 0 8) (.rdb (off16Of w))
  | 0x12 => .ok (.wrb (off16Of w) (val8Of w))
  | 0x13 => decodeZ w .rdfifo
  | 0x14 => decodeZ w .closeMap
  | 0x20 => decodeZ w .adcinit
  | 0x21 => decodeZ w .adcdrain
  | 0x22 => whenZero (w.extractLsb' 4 20) (.adctrig (mask4Of w))
  | 0x23 => decodeZ w .adcsettle
  | 0x24 => decodeZ w .adcharv
  | 0x25 => decodeZ w .adcstop
  | 0x26 => decodeZ w .adcshut
  | 0x30 => decodeC w .meduR
  | 0x31 => whenZero (w.extractLsb' 12 10) (.meduI (chOf w) (imm12Of w))
  | 0x40 => decodeZ w .modedet
  | 0x41 => decodeZ w .rateupd
  | 0x42 => decodeC w .autostep
  | 0x43 => decodeZ w .chinit
  | 0x50 => decodeC w .dcrvR
  | 0x51 => whenZero (w.extractLsb' 16 6) (.dcrvI (chOf w) (imm16Of w))
  | 0x52 => decodeZ w .dnorm
  | 0x53 => decodeC w .pwmapply
  | 0x54 => decodeZ w .pwmacq
  | 0x55 => decodeZ w .pwmrel
  | 0x60 => decodeZ w .cfgchk
  | 0x61 => decodeJ w .jmp
  | 0x62 => decodeJ w .bstop
  | 0x63 => decodeZ w .sleep
  | 0x64 => decodeZ w .dbgline
  | 0x65 => decodeZ w .halt
  | _ => .error .unassignedOpcode

/-- The instruction the decoder reads from an instruction whose bits are `w`, as spec/opcode_table.json numbers
them (one 32-bit word; bits above `nbits` are 0). -/
def decodeTableWord (nbits w : Nat) : Option Instr := (decode (BitVec.ofNat 32 (w % 2 ^ nbits))).toOption

/-- The channel field: CH, 2 bits. -/
def chBits (c : Chan) : BitVec 2 := BitVec.ofFin c

/-- The encoder: `OPC << 24` OR-ed with each field shifted to its low bit (30_encoding.md R60), written as the
concatenation of the format's fields, high bits first. -/
def encode : Instr → Word
  | .openMap => 0x10#8 ++ 0#24
  | .rdb off => 0x11#8 ++ off ++ 0#8
  | .wrb off val => 0x12#8 ++ off ++ val
  | .rdfifo => 0x13#8 ++ 0#24
  | .closeMap => 0x14#8 ++ 0#24
  | .adcinit => 0x20#8 ++ 0#24
  | .adcdrain => 0x21#8 ++ 0#24
  | .adctrig mask => 0x22#8 ++ 0#20 ++ mask
  | .adcsettle => 0x23#8 ++ 0#24
  | .adcharv => 0x24#8 ++ 0#24
  | .adcstop => 0x25#8 ++ 0#24
  | .adcshut => 0x26#8 ++ 0#24
  | .meduR ch => 0x30#8 ++ chBits ch ++ 0#22
  | .meduI ch imm => 0x31#8 ++ chBits ch ++ 0#10 ++ imm
  | .modedet => 0x40#8 ++ 0#24
  | .rateupd => 0x41#8 ++ 0#24
  | .autostep ch => 0x42#8 ++ chBits ch ++ 0#22
  | .chinit => 0x43#8 ++ 0#24
  | .dcrvR ch => 0x50#8 ++ chBits ch ++ 0#22
  | .dcrvI ch imm => 0x51#8 ++ chBits ch ++ 0#6 ++ imm
  | .dnorm => 0x52#8 ++ 0#24
  | .pwmapply ch => 0x53#8 ++ chBits ch ++ 0#22
  | .pwmacq => 0x54#8 ++ 0#24
  | .pwmrel => 0x55#8 ++ 0#24
  | .cfgchk => 0x60#8 ++ 0#24
  | .jmp tgt => 0x61#8 ++ 0#8 ++ tgt
  | .bstop tgt => 0x62#8 ++ 0#8 ++ tgt
  | .sleep => 0x63#8 ++ 0#24
  | .dbgline => 0x64#8 ++ 0#24
  | .halt => 0x65#8 ++ 0#24

/-- A row of the opcode map (30_encoding.md R62): a word `w` is the operation iff `w & mask = bits`. -/
structure OpcodeRow where
  mnemonic : String
  bits : Word
  mask : Word
  deriving DecidableEq, Repr

/-- The opcode map of 30_encoding.md R62, row by row. -/
def opcodeTable : List OpcodeRow :=
  [⟨"OPEN", 0x10000000, 0xFFFFFFFF⟩, ⟨"RDB", 0x11000000, 0xFF0000FF⟩, ⟨"WRB", 0x12000000, 0xFF000000⟩,
    ⟨"RDFIFO", 0x13000000, 0xFFFFFFFF⟩, ⟨"CLOSE", 0x14000000, 0xFFFFFFFF⟩] ++
  [⟨"ADCINIT", 0x20000000, 0xFFFFFFFF⟩, ⟨"ADCDRAIN", 0x21000000, 0xFFFFFFFF⟩,
    ⟨"ADCTRIG", 0x22000000, 0xFFFFFFF0⟩, ⟨"ADCSETTLE", 0x23000000, 0xFFFFFFFF⟩,
    ⟨"ADCHARV", 0x24000000, 0xFFFFFFFF⟩, ⟨"ADCSTOP", 0x25000000, 0xFFFFFFFF⟩,
    ⟨"ADCSHUT", 0x26000000, 0xFFFFFFFF⟩] ++
  [⟨"MEDU.R", 0x30000000, 0xFF3FFFFF⟩, ⟨"MEDU.I", 0x31000000, 0xFF3FF000⟩] ++
  [⟨"MODEDET", 0x40000000, 0xFFFFFFFF⟩, ⟨"RATEUPD", 0x41000000, 0xFFFFFFFF⟩,
    ⟨"AUTOSTEP", 0x42000000, 0xFF3FFFFF⟩, ⟨"CHINIT", 0x43000000, 0xFFFFFFFF⟩] ++
  [⟨"DCRV.R", 0x50000000, 0xFF3FFFFF⟩, ⟨"DCRV.I", 0x51000000, 0xFF3F0000⟩, ⟨"DNORM", 0x52000000, 0xFFFFFFFF⟩,
    ⟨"PWMAPPLY", 0x53000000, 0xFF3FFFFF⟩, ⟨"PWMACQ", 0x54000000, 0xFFFFFFFF⟩,
    ⟨"PWMREL", 0x55000000, 0xFFFFFFFF⟩] ++
  [⟨"CFGCHK", 0x60000000, 0xFFFFFFFF⟩, ⟨"JMP", 0x61000000, 0xFFFF0000⟩, ⟨"BSTOP", 0x62000000, 0xFFFF0000⟩,
    ⟨"SLEEP", 0x63000000, 0xFFFFFFFF⟩, ⟨"DBGLINE", 0x64000000, 0xFFFFFFFF⟩, ⟨"HALT", 0x65000000, 0xFFFFFFFF⟩]

/-- The word is the row's operation (30_encoding.md R62). -/
def OpcodeRow.matches (r : OpcodeRow) (w : Word) : Bool := w &&& r.mask == r.bits

/-! The assembler (30_encoding.md R70, R71). -/

/-- The instructions of a mnemonic with its operand numbers, a pseudo-operation expanded. The numbers are inside
their fields when the line is well formed. -/
def instrsOf (mnemonic : String) (ops : List Nat) : Option (List Instr) :=
  match mnemonic, ops with
  | "OPEN", [] => some [.openMap]
  | "RDB", [off] => some [.rdb (.ofNat 16 off)]
  | "WRB", [off, val] => some [.wrb (.ofNat 16 off) (.ofNat 8 val)]
  | "RDFIFO", [] => some [.rdfifo]
  | "CLOSE", [] => some [.closeMap]
  | "ADCINIT", [] => some [.adcinit]
  | "ADCDRAIN", [] => some [.adcdrain]
  | "ADCTRIG", [mask] => some [.adctrig (.ofNat 4 mask)]
  | "ADCSETTLE", [] => some [.adcsettle]
  | "ADCHARV", [] => some [.adcharv]
  | "ADCSTOP", [] => some [.adcstop]
  | "ADCSHUT", [] => some [.adcshut]
  | "MEDU.R", [c] => some [.meduR (Fin.ofNat 4 c)]
  | "MEDU.I", [c, imm] => some [.meduI (Fin.ofNat 4 c) (.ofNat 12 imm)]
  | "MODEDET", [] => some [.modedet]
  | "RATEUPD", [] => some [.rateupd]
  | "AUTOSTEP", [c] => some [.autostep (Fin.ofNat 4 c)]
  | "CHINIT", [] => some [.chinit]
  | "DCRV.R", [c] => some [.dcrvR (Fin.ofNat 4 c)]
  | "DCRV.I", [c, imm] => some [.dcrvI (Fin.ofNat 4 c) (.ofNat 16 imm)]
  | "DNORM", [] => some [.dnorm]
  | "PWMAPPLY", [c] => some [.pwmapply (Fin.ofNat 4 c)]
  | "PWMACQ", [] => some [.pwmacq]
  | "PWMREL", [] => some [.pwmrel]
  | "CFGCHK", [] => some [.cfgchk]
  | "JMP", [tgt] => some [.jmp (.ofNat 16 tgt)]
  | "BSTOP", [tgt] => some [.bstop (.ofNat 16 tgt)]
  | "SLEEP", [] => some [.sleep]
  | "DBGLINE", [] => some [.dbgline]
  | "HALT", [] => some [.halt]
  | "READCH", [mask] => some (Pseudo.expand (.readch (.ofNat 4 mask)))
  | "MEDALL", [] => some (Pseudo.expand .medall)
  | "AUTOALL", [] => some (Pseudo.expand .autoall)
  | "DUTYALL", [] => some (Pseudo.expand .dutyall)
  | "ITER", [] => some (Pseudo.expand .iter)
  | "SHUTDOWN", [] => some (Pseudo.expand .shutdown)
  | _, _ => none

/-- How many operation words a line takes: a label none, a pseudo-operation as many as its expansion. -/
def SourceLine.size : SourceLine → Nat
  | .label _ => 0
  | .op m ops => ((instrsOf m (ops.map fun _ => 0)).getD []).length

/-- The index in `PROG` each label stands for: that of the next operation word. -/
def labelIndexes (at_ : Nat) : List SourceLine → List (String × Nat)
  | [] => []
  | .label name :: rest => (name, at_) :: labelIndexes at_ rest
  | .op m ops :: rest => labelIndexes (at_ + (SourceLine.op m ops).size) rest

/-- The number an operand stands for. -/
def Operand.value (labels : List (String × Nat)) : Operand → Option Nat
  | .num n => some n
  | .label name => labels.lookup name

/-- The instructions of one line. -/
def SourceLine.instrs (labels : List (String × Nat)) : SourceLine → Option (List Instr)
  | .label _ => some []
  | .op m ops => (ops.mapM (Operand.value labels)).bind (instrsOf m)

/-- The words of a source: `none` where the source is not well formed, a label's index does not fit `TGT16`, or
the program is longer than `PROG` can be (20_memory.md R41). -/
def assemble (src : List SourceLine) : Option (List Word) :=
  let labels := labelIndexes 0 src
  if sourceWellFormed src && labels.all (fun l => decide (l.2 < 65536)) then
    (src.mapM (SourceLine.instrs labels)).bind fun is =>
      if is.flatten.length ≤ 65536 then some (is.flatten.map encode) else none
  else none

end Sys2Proof
end

