-- ==== Sys2Proof/Machine/State.lean ====
section
/-! DEFINITION. The architectural state of the LLF block (10_state.md), the inputs and the schedule that make one
step a function of it, the reasons a step can stop, and the state after reset. -/

namespace Sys2Proof.Machine

/-- The run state (10_state.md R14). -/
inductive RunState where
  | running
  | waiting
  | halted
  deriving DecidableEq, Repr

/-- The register writes of `ADCINIT` after the latch, in the order of 41_adc_controller.md R95, each one byte. -/
inductive InitWrite where
  /-- `RegField(CTRL, WPOFF) <- 1` -/
  | protectOff
  /-- `RegField(CLKDIV, DIV)`, low byte (20_memory.md R46) -/
  | divLow
  /-- `RegField(CLKDIV, DIV)`, high byte -/
  | divHigh
  /-- `OFF_STEPCFG[k] + 0`: MODE = 0 and the averaging code -/
  | stepMode (k : Chan)
  /-- `OFF_STEPCFG[k] + 1`: INSEL -/
  | stepInput (k : Chan)
  /-- `OFF_STEPDLY[k] + 0` -/
  | stepDelay (k : Chan)
  /-- `RegField(CTRL, WPOFF) <- 0` -/
  | protectOn
  /-- `RegField(CTRL, ADCEN) <- 1` -/
  | enable
  deriving DecidableEq, Repr

/-- Where inside a looping or waiting operation SEQ stands between two atomic steps (20_memory.md R51; log 16). -/
inductive Phase where
  /-- between operations -/
  | idle
  /-- `ADCINIT`: the next poll of `CLKCTRL.CLKEN`, after `polls` that read 0 -/
  | adcinitPoll (polls : Nat)
  /-- `ADCINIT`: the next configuration write -/
  | adcinitWrite (w : InitWrite)
  /-- `ADCDRAIN`: the next read of `FIFOCNT.COUNT`, `n` words discarded -/
  | drainCount (n : Nat)
  /-- `ADCDRAIN`: the next read of `FIFODATA`, `n` words discarded -/
  | drainRead (n : Nat)
  /-- `ADCHARV`: the next read of `FIFOCNT.COUNT` -/
  | harvCount
  /-- `ADCHARV`: the next read of `FIFODATA` -/
  | harvRead
  /-- `ADCSETTLE`: waiting since `t0` -/
  | settling (t0 : Time)
  /-- `SLEEP`: waiting since `t0` -/
  | sleeping (t0 : Time)
  deriving DecidableEq, Repr

/-- The configuration registers (10_state.md R10). -/
structure Cfg where
  debug : Bool
  sleep : BitVec 32
  n : BitVec 32
  clkDiv : BitVec 32
  avg : BitVec 8
  deriving DecidableEq, Repr

/-- The anomaly flags (10_state.md R16). -/
structure Anomalies where
  stale : Bool
  missing : Bool
  badTag : Bool
  dup : Bool
  deriving DecidableEq, Repr

/-- The fault registers (10_state.md R17). -/
structure FaultRegs where
  fault : BitVec 8
  faultPc : BitVec 16
  faultInfo : BitVec 32
  exitStatus : BitVec 8
  deriving DecidableEq, Repr

/-- The hardware side of the register window: the backing state of the window registers, the FIFO, the clock
latch and the pending bits (10_state.md R19, R28 to R30). -/
structure AdcSide where
  clkReq : Bool
  clkOn : Bool
  adcEn : Bool
  wpOff : Bool
  clkDiv : BitVec 16
  stepEn : BitVec 4
  stepMode : Quad (BitVec 2)
  stepAvg : Quad (BitVec 3)
  stepInSel : Quad (BitVec 4)
  stepDelay : Quad Byte
  fifo : List Word
  pend : Quad Bool
  deriving DecidableEq, Repr

/-- The auto-mode state of one channel (10_state.md R20). `offset` and `offsetDelta` are two's complement. -/
structure AutoState where
  loopCounter : BitVec 32
  loopLimit : BitVec 32
  offset : BitVec 16
  offsetDelta : BitVec 16
  offsetLimit : BitVec 16
  tLoopRand : Time
  tOffRand : Time
  ratePend : Bool
  deriving DecidableEq, Repr

/-- The PWM lines (10_state.md R32). -/
structure PwmSide where
  held : Quad Bool
  period : Quad (BitVec 32)
  duty : Quad (BitVec 32)
  writes : BitVec 64
  deriving DecidableEq, Repr

/-- An event of the log stream (60_exceptions.md R184). -/
inductive LogEvent where
  | fatal (code : BitVec 8) (info : BitVec 32)
  | fifoStale (n : Nat)
  | missing (c : Chan)
  | badTag (w : Word)
  | dupTag (w : Word)
  deriving DecidableEq, Repr

/-- What `DBGLINE` records of one channel (45_sequencer.md R157). -/
structure DebugChannel where
  raw : Sample
  filt : Sample
  loopCounter : BitVec 32
  loopLimit : BitVec 32
  offset : BitVec 16
  offsetDelta : BitVec 16
  offsetLimit : BitVec 16
  inten : BitVec 16
  nduty : BitVec 32
  deriving DecidableEq, Repr

/-- A record of the debug stream (45_sequencer.md R157). -/
structure DebugRecord where
  channels : Quad DebugChannel
  autoMode : Bool
  rateChan : Chan
  deriving DecidableEq, Repr

/-- What the host sets before it releases reset: the configuration registers, the program store, the platform
answers and the level of `stopReq` (10_state.md R10, R37, 20_memory.md R41; log 18). -/
structure HostLoad where
  cfg : Cfg
  prog : List Word
  mapOk : Bool
  pwmOk : Quad Bool
  stopReq : Bool
  deriving DecidableEq, Repr

/-- One turn of the schedule: which agent makes the next atomic step (20_memory.md R51; log 7). -/
inductive Turn where
  /-- SEQ -/
  | seq
  /-- CONV(k), with the `Sample(k)` it draws -/
  | conv (k : Chan) (sample : Sample)
  /-- CLKL -/
  | clkl
  /-- ENV: `now` advances by `d` time units -/
  | tick (d : Nat)
  /-- HOST: `stopReq` rises -/
  | stop
  /-- HOST: reset is asserted, the host loads `h`, reset is released -/
  | reset (h : HostLoad)
  deriving DecidableEq, Repr

/-- The inputs (10_state.md R35 to R37) and the model's own schedule and free-value counter. -/
structure Env where
  now : Time
  mapOk : Bool
  pwmOk : Quad Bool
  stopReq : Bool
  /-- the random source's coming answers (log 9) -/
  draws : List Nat
  /-- the coming turns; when it is empty SEQ moves (log 7) -/
  script : List Turn
  /-- the index of the next free value (log 10) -/
  freeIx : Nat
  deriving DecidableEq, Repr

/-- Everything the spec gives the machine (INVENTORY.md, '## State'). -/
structure State where
  /-- the parameters, constant (log 1) -/
  params : Params
  cfg : Cfg
  /-- `PROG` (20_memory.md R41) -/
  prog : List Word
  /-- the index of the operation in `PROG`; 65536 is the index after the last possible one (10_state.md R13; log 12) -/
  pc : Nat
  run : RunState
  phase : Phase
  raw : Quad Sample
  rawValid : Quad Bool
  filt : Quad Sample
  inten : Quad (BitVec 16)
  duty : Quad (BitVec 32)
  nduty : Quad (BitVec 32)
  applied : Quad (BitVec 32)
  appliedValid : Quad Bool
  rdata : BitVec 8
  fdata : BitVec 32
  autoMode : Bool
  rateChan : Chan
  anomalies : Anomalies
  faultRegs : FaultRegs
  adc : AdcSide
  auto : Quad AutoState
  speedMag : BitVec 32
  speedValid : Bool
  win : Quad (List Sample)
  wptr : Quad (BitVec 16)
  mapped : Bool
  closed : Bool
  pwm : PwmSide
  env : Env
  log : List LogEvent
  debug : List DebugRecord
  deriving DecidableEq, Repr

/-- The host-level faults: NONE. Every fault of the spec is a fault entry the spec describes (60_exceptions.md R176),
so it is a next state in which `run` is HALTED; nobody raises a host-level fault (log 13). -/
inductive Fault where
  deriving DecidableEq, Repr

/-- The reasons a step has no meaning. -/
inductive Refusal where
  /-- Raised by an arm of exec for an instruction without a meaning; safe. No arm raises it. -/
  | notModelled (mnemonic : String)
  /-- Raised by `MEDU.R` (with a sample) and `MEDU.I` when `cfgN` is outside 1..65535: the window memory's size is
  unspecified and a model refuses (45_sequencer.md R152, 93_implementation_defined.md U18); safe (log 14). -/
  | windowSizeUnspecified
  deriving DecidableEq, Repr

/-- `PROG_MAIN`, the block's own program (45_sequencer.md R151): start-up. -/
def progStart : List Word := [0x60000000, 0x10000000, 0x54000000, 0x20000000, 0x43000000]
/-- `PROG_MAIN`: one iteration. -/
def progLoop : List Word :=
  [0x21000000, 0x2200000F, 0x23000000, 0x24000000, 0x25000000, 0x40000000] ++
    [0x30000000, 0x30400000, 0x30800000, 0x30C00000] ++
    [0x41000000, 0x42000000, 0x42400000, 0x42800000, 0x42C00000] ++
    [0x50000000, 0x50400000, 0x50800000, 0x50C00000, 0x52000000] ++
    [0x53000000, 0x53400000, 0x53800000, 0x53C00000] ++
    [0x64000000, 0x62000021, 0x63000000, 0x61000005]
/-- `PROG_MAIN`: the normal exit path. -/
def progExit : List Word := [0x26000000, 0x55000000, 0x14000000, 0x65000000]
/-- `PROG_MAIN`, 37 words (45_sequencer.md R151). -/
def progMain : List Word := progStart ++ progLoop ++ progExit

/-- The configuration the host loads before the first reset: DESIGN CHOICE, the one of 95_test_vectors.md P4 (log 3). -/
def Cfg.atReset : Cfg where
  debug := false
  sleep := 10
  n := 100
  clkDiv := 160
  avg := 16

/-- The hardware side at reset, unspecified by the spec (70_reset_and_hazards.md R191): DESIGN CHOICE, the first start
`CLEAN_ADC` of 41_adc_controller.md R97 with the other fields 0 (log 5). -/
def AdcSide.atReset : AdcSide where
  clkReq := false
  clkOn := false
  adcEn := false
  wpOff := false
  clkDiv := 0
  stepEn := 0
  stepMode := .fill 0
  stepAvg := .fill 0
  stepInSel := .fill 0
  stepDelay := .fill 0
  fifo := []
  pend := .fill false

/-- The auto-mode state of a channel at reset (10_state.md R20). -/
def AutoState.atReset (p : Params) : AutoState where
  loopCounter := 0
  loopLimit := 1
  offset := 0
  offsetDelta := BitVec.ofNat 16 p.fixedStep
  offsetLimit := 0
  tLoopRand := 0
  tOffRand := 0
  ratePend := false

/-- The inputs at reset: DESIGN CHOICE (log 6). -/
def Env.atReset : Env where
  now := 0
  mapOk := true
  pwmOk := .fill true
  stopReq := false
  draws := []
  script := []
  freeIx := 0

/-- The machine right after reset (70_reset_and_hazards.md R190), with the parameters P0 (log 1), the host's
configuration (log 3), `PROG_MAIN` (log 17), and 0 for every register the spec leaves unspecified (log 4, log 5). -/
def State.reset : State where
  params := .p0
  cfg := .atReset
  prog := progMain
  pc := 0
  run := .running
  phase := .idle
  raw := .fill 0
  rawValid := .fill false
  filt := .fill 0
  inten := .fill 0
  duty := .fill 0
  nduty := .fill 0
  applied := .fill 0
  appliedValid := .fill false
  rdata := 0
  fdata := 0
  autoMode := false
  rateChan := 0
  anomalies := ⟨false, false, false, false⟩
  faultRegs := ⟨0, 0, 0, 0⟩
  adc := .atReset
  auto := .fill (.atReset .p0)
  speedMag := 0
  speedValid := false
  win := .fill (List.replicate 100 0)
  wptr := .fill 0
  mapped := false
  closed := false
  pwm := ⟨.fill false, .fill 0, .fill 0, 0⟩
  env := .atReset
  log := []
  debug := []

end Sys2Proof.Machine
end

