-- ==== Sys2Proof/Machine/Operands.lean ====
section
/-! DEFINITION. Operand forms: which register a byte offset of the window names, the bytes of the window registers,
the fields of a FIFO word, the averaging code, and the free inputs' ranges. -/

namespace Sys2Proof.Machine

/-- The registers of the window (10_state.md R18). -/
inductive WinReg where
  | clkctrl
  | ctrl
  | clkdiv
  | stepen
  | stepcfg (k : Chan)
  | stepdly (k : Chan)
  | fifocnt
  | fifodata
  deriving DecidableEq, Repr

/-- Where each register lies in the window: its first byte's offset, a parameter (00_scope.md R5). -/
def regMap (p : Params) : List (Nat × WinReg) :=
  [(p.offClkctrl, .clkctrl), (p.offCtrl, .ctrl), (p.offClkdiv, .clkdiv), (p.offStepen, .stepen)] ++
    [(p.offStepcfg.c0, .stepcfg 0), (p.offStepcfg.c1, .stepcfg 1), (p.offStepcfg.c2, .stepcfg 2),
      (p.offStepcfg.c3, .stepcfg 3)] ++
    [(p.offStepdly.c0, .stepdly 0), (p.offStepdly.c1, .stepdly 1), (p.offStepdly.c2, .stepdly 2),
      (p.offStepdly.c3, .stepdly 3)] ++
    [(p.offFifocnt, .fifocnt), (p.offFifodata, .fifodata)]

/-- The register and the byte of it (0..3) at a byte offset; `none` for an offset of no register. A 32-bit register
at offset `o` occupies bytes `o`..`o+3` (20_memory.md R42). -/
def locate (p : Params) (off : Nat) : Option (WinReg × Nat) :=
  (regMap p).findSome? fun e => if e.1 ≤ off ∧ off < e.1 + 4 then some (e.2, off - e.1) else none

/-- A byte read of the window: the value, and which of its bits the spec fixes (the others are any value). -/
structure WinByte where
  value : Byte
  known : Byte
  deriving DecidableEq, Repr

/-- Byte 0 of `CTRL`: `ADCEN` bit 0, `WPOFF` bit 1, reserved bits 0 (10_state.md R18). -/
def ctrlByte (adcEn wpOff : Bool) : Byte := 0#6 ++ BitVec.ofBool wpOff ++ BitVec.ofBool adcEn

/-- Byte 0 of `CLKCTRL`: `CLKEN` bit 0. -/
def clkctrlByte (en : Bool) : Byte := 0#7 ++ BitVec.ofBool en

/-- Byte 0 of `STEPEN`: `EN` bits 3:0. -/
def stepenByte (en : BitVec 4) : Byte := 0#4 ++ en

/-- Byte 0 of `STEPCFG[k]`: `MODE` bits 1:0, `AVG` bits 4:2. -/
def stepcfgLow (mode : BitVec 2) (avg : BitVec 3) : Byte := 0#3 ++ avg ++ mode

/-- Byte 1 of `STEPCFG[k]`: `INSEL` bits 11:8 of the register. -/
def stepcfgHigh (insel : BitVec 4) : Byte := 0#4 ++ insel

/-- The number of words in the FIFO as the byte `FIFOCNT.COUNT` (10_state.md R18); `FIFO_DEPTH` ≤ 255 (log 20). -/
def AdcSide.count (a : AdcSide) : Byte := BitVec.ofNat 8 a.fifo.length

/-- The byte of a register as a byte read sees it (20_memory.md R43). `FIFODATA` is not read by bytes (R48). -/
def winRead (a : AdcSide) (r : WinReg) (i : Nat) : WinByte :=
  match r, i with
  | .clkctrl, 0 => ⟨clkctrlByte a.clkOn, 0x01⟩
  | .ctrl, 0 => ⟨ctrlByte a.adcEn a.wpOff, 0x03⟩
  | .clkdiv, 0 => ⟨a.clkDiv.extractLsb' 0 8, 0xFF⟩
  | .clkdiv, 1 => ⟨a.clkDiv.extractLsb' 8 8, 0xFF⟩
  | .stepen, 0 => ⟨stepenByte a.stepEn, 0x0F⟩
  | .stepcfg k, 0 => ⟨stepcfgLow (a.stepMode.get k) (a.stepAvg.get k), 0x1F⟩
  | .stepcfg k, 1 => ⟨stepcfgHigh (a.stepInSel.get k), 0x0F⟩
  | .stepdly k, 0 => ⟨a.stepDelay.get k, 0xFF⟩
  | .fifocnt, 0 => ⟨a.count, 0xFF⟩
  | _, _ => ⟨0, 0⟩

/-- Write of `STEPEN` byte 0: `stepEn <- v[3:0]`, `pend[k] <- v[k]` (41_adc_controller.md R91). -/
def AdcSide.writeStepen (a : AdcSide) (v : Byte) : AdcSide :=
  { a with stepEn := v.extractLsb' 0 4, pend := .ofFn fun k => v.getLsbD k.val }

/-- The effect of a byte write on a register's byte (20_memory.md R44): the step configuration only while `wpOff`,
read-only registers and bytes without a field not at all. -/
def winWrite (a : AdcSide) (r : WinReg) (i : Nat) (v : Byte) : AdcSide :=
  match r, i with
  | .clkctrl, 0 => { a with clkReq := v.getLsbD 0 }
  | .ctrl, 0 => { a with adcEn := v.getLsbD 0, wpOff := v.getLsbD 1 }
  | .clkdiv, 0 => { a with clkDiv := a.clkDiv.extractLsb' 8 8 ++ v }
  | .clkdiv, 1 => { a with clkDiv := v ++ a.clkDiv.extractLsb' 0 8 }
  | .stepen, 0 => a.writeStepen v
  | .stepcfg k, 0 =>
    if a.wpOff then
      { a with stepMode := a.stepMode.set k (v.extractLsb' 0 2), stepAvg := a.stepAvg.set k (v.extractLsb' 2 3) }
    else a
  | .stepcfg k, 1 => if a.wpOff then { a with stepInSel := a.stepInSel.set k (v.extractLsb' 0 4) } else a
  | .stepdly k, 0 => if a.wpOff then { a with stepDelay := a.stepDelay.set k v } else a
  | _, _ => a

/-- The averaging code, log2 of the count, defined for 1, 2, 4, 8, 16 only (30_encoding.md R66). -/
def avgCode (n : BitVec 8) : Option (BitVec 3) :=
  match n.toNat with
  | 1 => some 0
  | 2 => some 1
  | 4 => some 2
  | 8 => some 3
  | 16 => some 4
  | _ => none

/-- `TAG` of a FIFO word, at its parameters' place (30_encoding.md R65). -/
def fifoTag (p : Params) (w : Word) : Nat := (w.toNat >>> p.tagLo) % 2 ^ p.tagW

/-- `DATA` of a FIFO word, at its parameter's place (30_encoding.md R65). -/
def fifoSample (p : Params) (w : Word) : Sample := BitVec.ofNat 12 (w.toNat >>> p.dataLo)

/-- The word the converter pushes: TAG = k, DATA = the sample, other bits 0 (41_adc_controller.md R92). -/
def fifoPack (p : Params) (k : Chan) (sample : Sample) : Word :=
  BitVec.ofNat 32 (k.val <<< p.tagLo ||| sample.toNat <<< p.dataLo)

/-- An answer of the random source made a legal one: itself inside lo..hi, else brought into the range
("a draw outside its range is not a legal environment", 95_test_vectors.md 2.5; log 9). -/
def inRange (lo hi v : Nat) : Nat := if lo ≤ v ∧ v ≤ hi then v else lo + v % (hi - lo + 1)

end Sys2Proof.Machine
end

