-- ==== Sys2Proof/Machine/Flags.lean ====
section
/-! DEFINITION. Flag and guard computations: the threshold predicates, the mode detector's decision, the engine's
activity and boundary guards, the anomaly flags. -/

namespace Sys2Proof.Machine

/-- `Below(x) := x < OFF_T`, on any integer (43_auto_mode.md R120). -/
def below (x : Int) : Bool := decide (x < Config.offT)

/-- `Above(x) := x > ON_T`, on any integer (43_auto_mode.md R120). -/
def above (x : Int) : Bool := decide (x > Config.onT)

/-- The number of channels whose raw value is below the off-threshold (`nb` of 43_auto_mode.md R121). -/
def belowCount (raw : Quad Sample) : Nat := raw.toList.countP fun x => below x.toNat

/-- The number of channels whose raw value is above the on-threshold (`na` of 43_auto_mode.md R121). -/
def aboveCount (raw : Quad Sample) : Nat := raw.toList.countP fun x => above x.toNat

/-- The channel with a raw value below the off-threshold (used when there is exactly one, 43_auto_mode.md R121). -/
def belowChan (raw : Quad Sample) : Chan :=
  if below raw.c0.toNat then 0 else if below raw.c1.toNat then 1 else if below raw.c2.toNat then 2 else 3

/-- Every channel has a sample in this batch. -/
def batchComplete (valid : Quad Bool) : Bool := valid.c0 && valid.c1 && valid.c2 && valid.c3

/-- `MODEDET`'s flags: `autoMode`, `rateChan`, `speedValid` (43_auto_mode.md R121). -/
def State.detectMode (s : State) : State :=
  if batchComplete s.rawValid then
    if belowCount s.raw = 4 then { s with autoMode := false }
    else if belowCount s.raw = 1 ∧ aboveCount s.raw = 3 then
      { s with
        speedValid := s.speedValid && s.autoMode && decide (s.rateChan = belowChan s.raw)
        autoMode := true
        rateChan := belowChan s.raw }
    else s
  else s

/-- `Active(c)` (43_auto_mode.md R123). -/
def State.engineActive (s : State) (c : Chan) : Bool :=
  s.autoMode && decide (c ≠ s.rateChan) && decide (Config.offT < (s.filt.get c).toNat)

/-- The biased intensity before flooring, signed (43_auto_mode.md R127). -/
def AutoState.biased (a : AutoState) (filt : Sample) : Int := filt.toNat + a.offset.toInt

/-- `hit`: the two guards in the direction of travel, joined by OR (43_auto_mode.md R127 step 3, R129). -/
def AutoState.boundaryHit (a : AutoState) (filt : Sample) : Bool :=
  (decide (0 < a.offsetDelta.toInt) && (decide ((a.offsetLimit.toNat : Int) ≤ a.offset.toInt) || above (a.biased filt))) ||
    (decide (a.offsetDelta.toInt < 0) &&
      (decide (a.offset.toInt ≤ -(a.offsetLimit.toNat : Int)) || below (a.biased filt)))

/-! The anomaly flags, sticky (10_state.md R16, 60_exceptions.md R172). Each logs its event (R184). -/

/-- `aStale <- 1; Log(FIFO_STALE, n)` -/
def State.markStale (s : State) (n : Nat) : State :=
  { s with anomalies := { s.anomalies with stale := true }, log := s.log ++ [.fifoStale n] }

/-- `aMissing <- 1; Log(MISSING, c)` -/
def State.markMissing (s : State) (c : Chan) : State :=
  { s with anomalies := { s.anomalies with missing := true }, log := s.log ++ [.missing c] }

/-- `aBadTag <- 1; Log(BAD_TAG, w)` -/
def State.markBadTag (s : State) (w : Word) : State :=
  { s with anomalies := { s.anomalies with badTag := true }, log := s.log ++ [.badTag w] }

/-- `aDup <- 1; Log(DUP_TAG, w)` -/
def State.markDup (s : State) (w : Word) : State :=
  { s with anomalies := { s.anomalies with dup := true }, log := s.log ++ [.dupTag w] }

end Sys2Proof.Machine
end

