-- ==== Sys2Proof/Machine/Ops.lean ====
section
/-! DEFINITION. The operations the meanings share: moving the pc, fault entry, free values and draws, accesses to the
register window and the FIFO, writes of the window memory and of a PWM line, and fetching an operation. -/

namespace Sys2Proof.Machine

/-- What a step answers. -/
abbrev Result := Host.Outcome State Fault Refusal

/-! ## The sequencer -/

/-- `pc <- pc + 1` (10_state.md R13: it does not wrap). -/
def State.advance (s : State) : State := { s with pc := s.pc + 1 }

/-- The end of an operation of several atomic steps: `pc <- pc + 1`, and SEQ stands between operations again. -/
def State.complete (s : State) : State := { s with pc := s.pc + 1, phase := .idle }

/-! ## Free values and inputs -/

/-- The free word a read of an unspecified value takes (log 10). -/
def State.freeWord (s : State) : Word := Config.freeWord s.env.freeIx

/-- The next free value is another one. -/
def State.nextFree (s : State) : State := { s with env.freeIx := s.env.freeIx + 1 }

/-- The value of the next `Draw(lo, hi)`: the random source's next answer, a free one when none is injected
(10_state.md R35; log 9). -/
def State.drawn (s : State) (lo hi : Nat) : Nat :=
  match s.env.draws with
  | v :: _ => inRange lo hi v
  | [] => inRange lo hi (Config.freeNat s.env.freeIx)

/-- The random source after a draw. -/
def State.afterDraw (s : State) : State :=
  match s.env.draws with
  | _ :: rest => { s with env.draws := rest }
  | [] => s.nextFree

/-- A time as the 64-bit input holds it: it does not wrap, `now` is non-decreasing (10_state.md R36; log 11). -/
def timeOf (t : Nat) : Time := BitVec.ofNat 64 (min t (2 ^ 64 - 1))

/-- `now` advanced by `d` time units (ENV, 20_memory.md R51). -/
def State.tick (s : State) (d : Nat) : State := { s with env.now := timeOf (s.env.now.toNat + d) }

/-! ## Fault entry -/

/-- The seven faults (60_exceptions.md R170). -/
inductive BlockFault where
  | badCfg
  | mapFail
  | pwmFail
  | clkTimeout
  | access
  | splitFifo
  | illOp
  deriving DecidableEq, Repr

/-- The code of a fault (60_exceptions.md R170). -/
def BlockFault.code : BlockFault → BitVec 8
  | .badCfg => 1
  | .mapFail => 2
  | .pwmFail => 3
  | .clkTimeout => 4
  | .access => 5
  | .splitFifo => 6
  | .illOp => 7

/-- `faultPc <- pc`, 16 bits. An index of 65536 has no 16-bit value: the register then takes a free value (log 12). -/
def State.pcReg (s : State) : BitVec 16 :=
  if s.pc < 65536 then BitVec.ofNat 16 s.pc else s.freeWord.setWidth 16

/-- Fault entry, `raise E(info)` (60_exceptions.md R176): the fault registers, the log, `run`; nothing else of the
block changes, `pc` included. (A `pc` of 65536 uses a free value, so the free-value counter moves.) -/
def State.raise (s : State) (f : BlockFault) (info : Word) : State :=
  { s with
    faultRegs := ⟨f.code, s.pcReg, info, f.code⟩
    log := s.log ++ [.fatal f.code info]
    run := .halted
    phase := .idle
    env.freeIx := if s.pc < 65536 then s.env.freeIx else s.env.freeIx + 1 }

/-- A fault to be raised, with its `faultInfo`. -/
structure Trap where
  fault : BlockFault
  info : Word
  deriving DecidableEq, Repr

/-- Fault entry as the outcome of an operation: a next state (log 13). -/
def State.trap (s : State) (t : Trap) : Result := .next (s.raise t.fault t.info)

/-! ## The register window -/

/-- `E_ACCESS(off)` (20_memory.md R47). -/
def accessTrap (off : Nat) : Trap := ⟨.access, BitVec.ofNat 32 off⟩

/-- `MemRead(off, 1)` (20_memory.md R43, R47, R48): an offset of no register gives no known bit. No side effect. -/
def State.memRead (s : State) (off : Nat) : Except Trap WinByte :=
  if s.mapped = false ∨ s.params.winSize ≤ off then .error (accessTrap off)
  else
    match locate s.params off with
    | some (.fifodata, _) => .error ⟨.splitFifo, BitVec.ofNat 32 off⟩
    | some (r, i) => .ok (winRead s.adc r i)
    | none => .ok ⟨0, 0⟩

/-- `MemWrite(off, 1, v)` (20_memory.md R44, R47). -/
def State.memWrite (s : State) (off : Nat) (v : Byte) : Except Trap State :=
  if s.mapped = false ∨ s.params.winSize ≤ off then .error (accessTrap off)
  else
    match locate s.params off with
    | some (r, i) => .ok { s with adc := winWrite s.adc r i v }
    | none => .error (accessTrap off)

/-- A byte write as the whole effect of an atomic step, `next` applied to the state after it. -/
def State.writeThen (s : State) (off : Nat) (v : Byte) (next : State → State) : Result :=
  match s.memWrite off v with
  | .ok t => .next (next t)
  | .error e => s.trap e

/-- The word `MemRead(OFF_FIFODATA, 4)` returns: the head, or any value when the FIFO is empty (20_memory.md R45). -/
def State.fifoHead (s : State) : Word :=
  match s.adc.fifo with
  | w :: _ => w
  | [] => s.freeWord

/-- The state after `MemRead(OFF_FIFODATA, 4)`: the head is removed, an empty FIFO stays empty (20_memory.md R45). -/
def State.fifoPop (s : State) : State :=
  match s.adc.fifo with
  | _ :: rest => { s with adc.fifo := rest }
  | [] => s.nextFree

/-- The condition of the 32-bit read: `mapped = 1` (20_memory.md R45, R47). -/
def State.fifoAccess (s : State) : Option Trap :=
  if s.mapped then none else some (accessTrap s.params.offFifodata)

/-! ## The window memory -/

/-- Whether the spec gives the window memory's size: `cfgN` in 1..65535 (45_sequencer.md R152). -/
def State.windowSized (s : State) : Bool := decide (1 ≤ s.cfg.n.toNat ∧ s.cfg.n.toNat ≤ 65535)

/-- `win[c][wptr[c]] <- x; wptr[c] <- (wptr[c] + 1) mod N` (42_median_filter.md R111, R113, R114). -/
def State.pushSample (s : State) (c : Chan) (x : Sample) : State :=
  { s with
    win := s.win.set c ((s.win.get c).set (s.wptr.get c).toNat x)
    wptr := s.wptr.set c (BitVec.ofNat 16 (((s.wptr.get c).toNat + 1) % s.cfg.n.toNat)) }

/-! ## The PWM lines -/

/-- `pwmWrites + 1`; past 64 bits the spec states no value: a free one (log 19). -/
def State.nextPwmWrites (s : State) : BitVec 64 :=
  if s.pwm.writes.toNat + 1 < 2 ^ 64 then s.pwm.writes + 1 else BitVec.ofNat 64 (Config.freeNat s.env.freeIx)

/-- One write of the (period, duty) pair to line `c` (44_duty_controller.md R145). -/
def State.pwmWrite (s : State) (c : Chan) (duty : BitVec 32) : State :=
  { s with
    pwm.period := s.pwm.period.set c (BitVec.ofNat 32 s.params.pwmPeriod)
    pwm.duty := s.pwm.duty.set c duty
    pwm.writes := s.nextPwmWrites
    env.freeIx := if s.pwm.writes.toNat + 1 < 2 ^ 64 then s.env.freeIx else s.env.freeIx + 1 }

/-! ## Fetch -/

/-- Fetch and decode (45_sequencer.md R150 (1) to (3)): the `pc` range before the word. -/
def State.fetch (s : State) : Except Trap Instr :=
  match s.prog[s.pc]? with
  | none => .error ⟨.illOp, 0xFFFF0000 ||| BitVec.ofNat 32 s.pc⟩
  | some w =>
    match decode w with
    | .ok i => .ok i
    | .error _ => .error ⟨.illOp, w⟩

end Sys2Proof.Machine
end

