-- ==== Sys2Proof/Machine/Agents.lean ====
section
/-! DEFINITION. The agents beside the sequencer: the converter, the clock latch, the host's reset
(41_adc_controller.md R92, R93; 70_reset_and_hazards.md R190 to R192). -/

namespace Sys2Proof.Machine

/-- CONV(k) is enabled (41_adc_controller.md R92). -/
def State.convEnabled (s : State) (k : Chan) : Bool :=
  s.adc.adcEn && s.adc.clkOn && s.adc.stepEn.getLsbD k.val && s.adc.pend.get k &&
    decide (s.adc.stepMode.get k = 0) && decide (s.adc.fifo.length < s.params.fifoDepth)

/-- CONV(k): push the tagged sample, clear the pending bit (R92). A turn of a step that is not enabled does nothing
(log 8). -/
def State.convert (s : State) (k : Chan) (sample : Sample) : State :=
  if s.convEnabled k then
    { s with adc.fifo := s.adc.fifo ++ [fifoPack s.params k sample], adc.pend := s.adc.pend.set k false }
  else s

/-- CLKL: `clkOn <- clkReq` (R93); with the two equal it changes nothing. -/
def State.latchClock (s : State) : State := { s with adc.clkOn := s.adc.clkReq }

/-- HOST: `stopReq` rises (10_state.md R37). -/
def State.requestStop (s : State) : State := { s with env.stopReq := true }

/-- The window of a channel after a reset: N slots of `INIT_SAMPLE` (10_state.md R26). With an illegal `cfgN` its size
is unspecified: nothing stands here and no operation reads it (log 14). -/
def initialWindow (p : Params) (n : BitVec 32) : List Sample :=
  if 1 ≤ n.toNat ∧ n.toNat ≤ 65535 then List.replicate n.toNat p.initSample else []

/-- The j-th free word of a reset, for a register the spec leaves unspecified (10_state.md "U"; log 18). -/
def State.resetWord (s : State) (j : Nat) : Word := Config.freeWord (s.env.freeIx + j)

/-- Reset asserted during a run, with the host's load `h` (70_reset_and_hazards.md R190 to R192): the block's own state
takes its reset values, its unspecified registers free ones; the hardware side, the PWM pairs and the time stay. -/
def State.hostReset (s : State) (h : HostLoad) : State :=
  { s with
    cfg := h.cfg
    prog := h.prog
    pc := 0
    run := .running
    phase := .idle
    raw := .fill 0
    rawValid := .fill false
    filt := .fill 0
    inten := .fill 0
    duty := .fill 0
    nduty := .fill 0
    applied := .ofFn fun c => s.resetWord c.val
    appliedValid := .fill false
    rdata := (s.resetWord 4).setWidth 8
    fdata := s.resetWord 5
    autoMode := false
    rateChan := 0
    anomalies := ⟨false, false, false, false⟩
    faultRegs := ⟨0, (s.resetWord 6).setWidth 16, s.resetWord 7, (s.resetWord 8).setWidth 8⟩
    auto := .fill (.atReset s.params)
    speedMag := 0
    speedValid := false
    win := .fill (initialWindow s.params h.cfg.n)
    wptr := .fill 0
    mapped := false
    closed := false
    pwm := { s.pwm with held := .fill false, writes := 0 }
    env := { s.env with mapOk := h.mapOk, pwmOk := h.pwmOk, stopReq := h.stopReq, freeIx := s.env.freeIx + 9 }
    log := []
    debug := [] }

end Sys2Proof.Machine
end

