-- ==== Sys2Proof/Machine/AdcController.lean ====
section
/-! DEFINITION. The ADC FIFO controller: ADCINIT, ADCDRAIN, ADCTRIG, ADCSETTLE, ADCHARV, ADCSTOP, ADCSHUT
(41_adc_controller.md). An operation that loops or waits makes one atomic step (20_memory.md R51); `State.phase` says
which one is next (log 16). -/

namespace Sys2Proof.Machine

/-! ## ADCINIT (41_adc_controller.md R95) -/

/-- The offset a configuration write goes to. -/
def InitWrite.offset (p : Params) : InitWrite → Nat
  | .protectOff => p.offCtrl
  | .divLow => p.offClkdiv
  | .divHigh => p.offClkdiv + 1
  | .stepMode k => p.offStepcfg.get k
  | .stepInput k => p.offStepcfg.get k + 1
  | .stepDelay k => p.offStepdly.get k
  | .protectOn => p.offCtrl
  | .enable => p.offCtrl

/-- The byte a configuration write writes; a field keeps its register's other fields and writes 0 to reserved bits
(20_memory.md R46). `none` where `AvgCode` is not defined (30_encoding.md R66). -/
def InitWrite.byte (s : State) : InitWrite → Option Byte
  | .protectOff => some (ctrlByte s.adc.adcEn true)
  | .divLow => some (s.cfg.clkDiv.extractLsb' 0 8)
  | .divHigh => some (s.cfg.clkDiv.extractLsb' 8 8)
  | .stepMode _ => (avgCode s.cfg.avg).map (stepcfgLow 0)
  | .stepInput k => some (stepcfgHigh (s.params.inSel.get k))
  | .stepDelay _ => some s.params.sampleDelay
  | .protectOn => some (ctrlByte s.adc.adcEn false)
  | .enable => some (ctrlByte true s.adc.wpOff)

/-- The write after this one, in the order of R95; `none` after the last. -/
def InitWrite.after : InitWrite → Option InitWrite
  | .protectOff => some .divLow
  | .divLow => some .divHigh
  | .divHigh => some (.stepMode 0)
  | .stepMode k => some (.stepInput k)
  | .stepInput k => some (.stepDelay k)
  | .stepDelay k => if k = 3 then some .protectOn else some (.stepMode (k + 1))
  | .protectOn => some .enable
  | .enable => none

/-- What follows a configuration write: the next write, or the end of the operation. -/
def State.afterInitWrite (w : InitWrite) (s : State) : State :=
  match w.after with
  | some w' => { s with phase := .adcinitWrite w' }
  | none => s.complete

/-- One configuration write. -/
def adcinitWrite (w : InitWrite) (s : State) : Result :=
  match w.byte s with
  | some v => s.writeThen (w.offset s.params) v (State.afterInitWrite w)
  | none => s.trap ⟨.badCfg, 2⟩

/-- Whether the poll count `n` has reached `CLK_WAIT_MAX`; never when that is ∞. -/
def pollsExpired (p : Params) (n : Nat) : Bool :=
  match p.clkWaitMax with
  | some m => decide (m ≤ n)
  | none => false

/-- One poll of `CLKCTRL.CLKEN`, after `polls` that read 0. -/
def adcinitPoll (polls : Nat) (s : State) : Result :=
  match s.memRead s.params.offClkctrl with
  | .error t => s.trap t
  | .ok b =>
    if b.value.getLsbD 0 then .next { s with run := .running, phase := .adcinitWrite .protectOff }
    else if pollsExpired s.params (polls + 1) then s.trap ⟨.clkTimeout, BitVec.ofNat 32 (polls + 1)⟩
    else .next { s with phase := .adcinitPoll (polls + 1) }

/-- The configuration tests, then `RegField(CLKCTRL, CLKEN) <- 1`. -/
def adcinitStart (s : State) : Result :=
  if Config.clkDivMax < s.cfg.clkDiv.toNat then s.trap ⟨.badCfg, 1⟩
  else if avgCode s.cfg.avg = none then s.trap ⟨.badCfg, 2⟩
  else
    s.writeThen s.params.offClkctrl (clkctrlByte true) fun t =>
      { t with run := .waiting, phase := .adcinitPoll 0 }

/-- `ADCINIT` (R95). -/
def execAdcinit (s : State) : Result :=
  match s.phase with
  | .adcinitPoll polls => adcinitPoll polls s
  | .adcinitWrite w => adcinitWrite w s
  | _ => adcinitStart s

/-! ## ADCDRAIN (R96) -/

/-- The end of the loop: `if n > 0: aStale <- 1; Log(FIFO_STALE, n)`. -/
def State.drained (s : State) (n : Nat) : State := if n = 0 then s.complete else (s.markStale n).complete

/-- A read of `FIFOCNT.COUNT`. -/
def drainCount (n : Nat) (s : State) : Result :=
  match s.memRead s.params.offFifocnt with
  | .error t => s.trap t
  | .ok b => if b.value = 0 then .next (s.drained n) else .next { s with phase := .drainRead n }

/-- A read of `FIFODATA`, the word discarded. -/
def drainRead (n : Nat) (s : State) : Result :=
  match s.fifoAccess with
  | some t => s.trap t
  | none => .next { s.fifoPop with phase := .drainCount (n + 1) }

/-- `ADCDRAIN` (R96). -/
def execAdcdrain (s : State) : Result :=
  match s.phase with
  | .drainCount n => drainCount n s
  | .drainRead n => drainRead n s
  | _ => drainCount 0 s

/-! ## ADCTRIG, ADCSTOP, ADCSHUT -/

/-- `ADCTRIG mask` (R98): the flags are cleared before the access that may fault (log 15). -/
def execAdctrig (mask : BitVec 4) (s : State) : Result :=
  { s with rawValid := .fill false }.writeThen s.params.offStepen (stepenByte mask) State.advance

/-- `ADCSTOP` (R101). -/
def execAdcstop (s : State) : Result := s.writeThen s.params.offStepen (stepenByte 0) State.advance

/-- `ADCSHUT` (R102). -/
def execAdcshut (s : State) : Result :=
  s.writeThen s.params.offCtrl (ctrlByte false s.adc.wpOff) State.advance

/-! ## Waits (41_adc_controller.md R99, 45_sequencer.md R155) -/

/-- The start of a wait: `t0 <- Now(); run <- WAITING`. -/
def State.startWait (s : State) (p : Time → Phase) : State := { s with run := .waiting, phase := p s.env.now }

/-- The environment has advanced `now` past the wait's end, by how much is free (10_state.md R36 "advanced at least
by the stated delay"; log 11). Time that turns have already advanced far enough stays. -/
def State.passTime (s : State) (until_ : Nat) : State :=
  if until_ ≤ s.env.now.toNat then s
  else { s with env.now := timeOf (until_ + Config.freeNat s.env.freeIx) }.nextFree

/-- The wait's own atomic step: it ends when `Now() >= t0 + delay`, and the environment sees to it that it does; only
where that instant lies past the 64-bit input's range does it go on waiting (log 11). -/
def State.endWait (s : State) (t0 : Time) (delay : Nat) : State :=
  let t := s.passTime (t0.toNat + delay)
  if t0.toNat + delay ≤ t.env.now.toNat then { t with run := .running }.complete else t

/-- `ADCSETTLE` (R99). -/
def execAdcsettle (s : State) : Result :=
  match s.phase with
  | .settling t0 => .next (s.endWait t0 s.params.settleDelay)
  | _ => .next (s.startWait .settling)

/-! ## ADCHARV (R100) -/

/-- One harvested word, taken by its tag (R100; 70_reset_and_hazards.md R205). -/
def State.harvestWord (s : State) (w : Word) : State :=
  if h : fifoTag s.params w < 4 then
    let c : Chan := ⟨fifoTag s.params w, h⟩
    let t := if s.rawValid.get c then s.markDup w else s
    { t with raw := t.raw.set c (fifoSample s.params w), rawValid := t.rawValid.set c true }
  else s.markBadTag w

/-- A read of `FIFOCNT.COUNT`. -/
def harvCount (s : State) : Result :=
  match s.memRead s.params.offFifocnt with
  | .error t => s.trap t
  | .ok b => if b.value = 0 then .next s.complete else .next { s with phase := .harvRead }

/-- A read of `FIFODATA`, the word harvested. -/
def harvRead (s : State) : Result :=
  match s.fifoAccess with
  | some t => s.trap t
  | none => .next { s.fifoPop.harvestWord s.fifoHead with phase := .harvCount }

/-- `ADCHARV` (R100). -/
def execAdcharv (s : State) : Result :=
  match s.phase with
  | .harvRead => harvRead s
  | _ => harvCount s

end Sys2Proof.Machine
end

