-- ==== Sys2Proof/Machine/AutoMode.lean ====
section
/-! DEFINITION. The mode detector and the auto-mode engine: MODEDET, RATEUPD, AUTOSTEP, CHINIT (43_auto_mode.md). -/

namespace Sys2Proof.Machine

/-! ## Tables and ranges -/

/-- `SpeedTable(x)`: the magnitude of the least entry with `x < bound` (43_auto_mode.md R124). A legal table's last
bound is 4096, so a 12-bit intensity always finds one (log 21). -/
def speedLookup : List (Nat × Nat) → Nat → Nat
  | [], _ => 0
  | (bound, mag) :: rest, x => if x < bound then mag else speedLookup rest x

/-- `SpeedTable(x)` of the parameters. -/
def speedTable (p : Params) (x : Nat) : Nat := speedLookup p.speedTable x

/-- `LoopMax`, the largest magnitude (R124). -/
def loopMax (p : Params) : Nat := speedTable p 0

/-- `LoFrac(m) = ceil(m * FRAC_NUM / FRAC_DEN)` (R125). -/
def loFrac (p : Params) (m : Nat) : Nat := (m * p.fracNum + (p.fracDen - 1)) / p.fracDen

/-- `LoLoop(m) = max(1, LoFrac(m))` (R125). -/
def loLoop (p : Params) (m : Nat) : Nat := max 1 (loFrac p m)

/-- `LoOff = LoFrac(OFFSET_LIMIT_MAX)` (R125). -/
def loOff (p : Params) : Nat := loFrac p p.offsetLimitMax

/-- `IntCap(x) = floor(x * CAP_NUM / CAP_DEN)` (R125). -/
def intCap (p : Params) (x : Nat) : Nat := x * p.capNum / p.capDen

/-- `SpeedTable(filt[rateChan])`, the speed the rate-control channel asks for. -/
def State.rateMagnitude (s : State) : Nat := speedTable s.params (s.filt.get s.rateChan).toNat

/-! ## MODEDET and RATEUPD -/

/-- `MODEDET` (R121). -/
def execModedet (s : State) : Result := .next s.detectMode.advance

/-- The pending rate-change flag of every channel but the rate channel (R126). -/
def State.raisePending (s : State) : State :=
  { s with auto := .ofFn fun c =>
      if c = s.rateChan then s.auto.get c else { s.auto.get c with ratePend := true } }

/-- `RATEUPD` (R126). -/
def execRateupd (s : State) : Result :=
  if s.autoMode = true ∧ (s.speedValid = false ∨ s.rateMagnitude ≠ s.speedMag.toNat) then
    .next { s.raisePending with speedMag := BitVec.ofNat 32 s.rateMagnitude, speedValid := true }.advance
  else .next s.advance

/-! ## The per-channel state machine (R127) -/

/-- `clamp(v, -limit, +limit)` (00_scope.md R7). -/
def clampOffset (v : Int) (limit : Nat) : Int := min (max v (-(limit : Int))) limit

/-- Step 1: a pending rate change takes the table's magnitude at once (R128). The counter itself is advanced in
step 2, where its value is compared before it is stored. -/
def AutoState.takeRate (a : AutoState) (mag : Nat) : AutoState :=
  if a.ratePend then { a with loopLimit := BitVec.ofNat 32 mag, ratePend := false } else a

/-- Steps 1 and 2: `loopCounter + 1`; when it has reached the limit it is reset and the offset moves, saturating at
`±offsetLimit` (R128). -/
def AutoState.count (a : AutoState) : AutoState :=
  if a.loopLimit.toNat ≤ a.loopCounter.toNat + 1 then
    { a with
      loopCounter := 0
      offset := BitVec.ofInt 16 (clampOffset (a.offset.toInt + a.offsetDelta.toInt) a.offsetLimit.toNat) }
  else { a with loopCounter := a.loopCounter + 1 }

/-- Step 3: the direction reversed at a boundary hit (R129). -/
def AutoState.flip (a : AutoState) : AutoState := { a with offsetDelta := -a.offsetDelta }

/-- A new offset limit: the draw capped relative to the intensity, and the offset pulled inside it (R130). -/
def AutoState.limitOffset (p : Params) (filt : Sample) (d : Nat) (a : AutoState) : AutoState :=
  let limit := min d (intCap p filt.toNat)
  { a with
    offsetLimit := BitVec.ofNat 16 limit
    offset := BitVec.ofInt 16 (clampOffset a.offset.toInt limit) }

/-- Channel `c`'s auto-mode state replaced. -/
def State.setAuto (s : State) (c : Chan) (a : AutoState) : State := { s with auto := s.auto.set c a }

/-- The coin of a randomization succeeds: `Draw(0, PROB_DEN - 1) < PROB_NUM` (R130). -/
def State.coin (s : State) : Bool := decide (s.drawn 0 (s.params.probDen - 1) < s.params.probNum)

/-- `RandOff(c, t)` (R130, R131). -/
def randOff (c : Chan) (t : Time) (s : State) : State :=
  if (s.auto.get c).tOffRand.toNat + Config.cooldown ≤ t.toNat then
    let u := (s.setAuto c { s.auto.get c with tOffRand := t }).afterDraw
    if s.coin then
      let d := u.drawn (loOff u.params) u.params.offsetLimitMax
      let v := u.afterDraw
      v.setAuto c ((v.auto.get c).limitOffset v.params (v.filt.get c) d)
    else u
  else s

/-- `RandLoop(c, t)` (R132, R131). -/
def randLoop (c : Chan) (t : Time) (s : State) : State :=
  if (s.auto.get c).tLoopRand.toNat + Config.cooldown ≤ t.toNat then
    let u := (s.setAuto c { s.auto.get c with tLoopRand := t }).afterDraw
    if s.coin then
      let d := u.drawn (loLoop u.params u.rateMagnitude) u.rateMagnitude
      let v := u.afterDraw
      v.setAuto c { v.auto.get c with loopLimit := BitVec.ofNat 32 d }
    else u
  else s

/-- Steps 1 and 2 of an advance. -/
def State.advancedAuto (s : State) (c : Chan) : AutoState := ((s.auto.get c).takeRate s.rateMagnitude).count

/-- Steps 1 to 4 of an active engine: the draws of `RandOff` before those of `RandLoop`, both at the same `now`
(R127, R132). -/
def State.advanceEngine (s : State) (c : Chan) : State :=
  let a := s.advancedAuto c
  if a.boundaryHit (s.filt.get c) then
    randLoop c s.env.now (randOff c s.env.now (s.setAuto c a.flip))
  else s.setAuto c a

/-- `inten[c] <- max(0, filt[c] + offset[c])` (R127). -/
def State.outputBiased (s : State) (c : Chan) : State :=
  { s with inten := s.inten.set c (BitVec.ofNat 16 ((s.auto.get c).biased (s.filt.get c)).toNat) }

/-- The bypass: `inten[c] <- filt[c]`, the auto state held (R127). -/
def State.outputFiltered (s : State) (c : Chan) : State :=
  { s with inten := s.inten.set c ((s.filt.get c).setWidth 16) }

/-- `AUTOSTEP ch` (R127). -/
def execAutostep (c : Chan) (s : State) : Result :=
  if s.engineActive c then .next ((s.advanceEngine c).outputBiased c).advance
  else .next (s.outputFiltered c).advance

/-! ## CHINIT -/

/-- The creation of one channel's auto-mode state: the loop limit drawn, then the offset limit (R134). -/
def createChannel (c : Chan) (s : State) : State :=
  let loop := s.drawn (loLoop s.params (loopMax s.params)) (loopMax s.params)
  let u := s.afterDraw
  let off := u.drawn (loOff u.params) u.params.offsetLimitMax
  u.afterDraw.setAuto c
    { loopCounter := 0
      loopLimit := BitVec.ofNat 32 loop
      offset := 0
      offsetDelta := BitVec.ofNat 16 s.params.fixedStep
      offsetLimit := BitVec.ofNat 16 off
      tLoopRand := s.env.now
      tOffRand := s.env.now
      ratePend := false }

/-- `CHINIT` (R134): channels 0, 1, 2, 3 in this order. -/
def execChinit (s : State) : Result :=
  .next { createChannel 3 (createChannel 2 (createChannel 1 (createChannel 0 s))) with speedValid := false }.advance

end Sys2Proof.Machine
end

