-- ==== Sys2Proof/Machine/DutyController.lean ====
section
/-! DEFINITION. The duty controller: DCRV.R, DCRV.I, DNORM, PWMAPPLY, PWMACQ, PWMREL (44_duty_controller.md). -/

namespace Sys2Proof.Machine

/-- `Curve(i) = min(DUTY_CEIL, DUTY_FLOOR + floor(i * i * CURVE_NUM / CURVE_DEN))` (44_duty_controller.md R141). -/
def curve (p : Params) (i : Nat) : Nat := min p.dutyCeil (p.dutyFloor + i * i * p.curveNum / p.curveDen)

/-- The duty look-up table, 32-bit entries, constant (10_state.md R27). -/
def dutyLut (p : Params) (i : BitVec 16) : BitVec 32 := BitVec.ofNat 32 (curve p i.toNat)

/-- `DCRV.R ch` (R142). -/
def execDcrvR (c : Chan) (s : State) : Result :=
  .next { s with duty := s.duty.set c (dutyLut s.params (s.inten.get c)) }.advance

/-- `DCRV.I ch, imm16` (R143). -/
def execDcrvI (c : Chan) (imm : BitVec 16) (s : State) : Result :=
  .next { s with duty := s.duty.set c (dutyLut s.params imm) }.advance

/-- The sum of the four duties, exact (R144). -/
def dutySum (duty : Quad (BitVec 32)) : Nat :=
  duty.c0.toNat + duty.c1.toNat + duty.c2.toNat + duty.c3.toNat

/-- The proportional normalization: every entry scaled by `BUDGET / S`, rounded down, when the sum exceeds the
budget; unchanged otherwise (R144). -/
def normalize (budget : Nat) (duty : Quad (BitVec 32)) : Quad (BitVec 32) :=
  if budget < dutySum duty then duty.map fun d => BitVec.ofNat 32 (d.toNat * budget / dutySum duty) else duty

/-- `DNORM` (R144). -/
def execDnorm (s : State) : Result := .next { s with nduty := normalize s.params.budget s.duty }.advance

/-- Whether `PWMAPPLY` writes the line: nothing applied before, or another value (R145). -/
def State.mustApply (s : State) (c : Chan) : Bool :=
  !(s.appliedValid.get c) || decide (s.nduty.get c ≠ s.applied.get c)

/-- The write of `PWMAPPLY` (R145). -/
def State.applyDuty (s : State) (c : Chan) : State :=
  { s.pwmWrite c (s.nduty.get c) with
    applied := s.applied.set c (s.nduty.get c)
    appliedValid := s.appliedValid.set c true }

/-- `PWMAPPLY ch` (R145). -/
def execPwmapply (c : Chan) (s : State) : Result :=
  if s.pwm.held.get c = false then s.trap ⟨.access, BitVec.ofNat 32 (0x10000 + c.val)⟩
  else if s.mustApply c then .next (s.applyDuty c).advance
  else .next s.advance

/-- The lines acquired in order from line `k` on, until one cannot be (R146). -/
def acquireLines : List Chan → State → Result
  | [], s => .next s.advance
  | k :: ks, s =>
    if s.env.pwmOk.get k then acquireLines ks { s with pwm.held := s.pwm.held.set k true }
    else s.trap ⟨.pwmFail, BitVec.ofNat 32 k.val⟩

/-- `PWMACQ` (R146). -/
def execPwmacq (s : State) : Result := acquireLines [0, 1, 2, 3] s

/-- `PWMREL` (R147). -/
def execPwmrel (s : State) : Result := .next { s with pwm.held := .fill false }.advance

end Sys2Proof.Machine
end

