-- ==== Sys2Proof/Machine/MedianFilter.lean ====
section
/-! DEFINITION. The median filter: MEDU.R, MEDU.I (42_median_filter.md). -/

namespace Sys2Proof.Machine

/-- The slot values in ascending order (42_median_filter.md R112). -/
def sortedSamples (xs : List Sample) : List Sample := xs.insertionSort fun a b => a.toNat ≤ b.toNat

/-- `Median` of the N slots: `s[floor((N - 1) / 2)]`, the lower-middle element (R112). -/
def median (n : Nat) (xs : List Sample) : Sample := (sortedSamples xs).getD ((n - 1) / 2) 0

/-- Enter a sample into channel `c`'s window and output the median of the buffer after the write (R111, R112). -/
def State.medianUpdate (s : State) (c : Chan) (x : Sample) : State :=
  let t := s.pushSample c x
  { t with filt := t.filt.set c (median s.cfg.n.toNat (t.win.get c)) }

/-- The update where the spec gives the window's size; where `cfgN` is illegal the size is unspecified and the model
refuses (45_sequencer.md R152, 93_implementation_defined.md U18; log 14). -/
def enterSample (c : Chan) (x : Sample) (s : State) : Result :=
  if s.windowSized then .next (s.medianUpdate c x).advance else .refused .windowSizeUnspecified

/-- `MEDU.R ch` (R113). -/
def execMeduR (c : Chan) (s : State) : Result :=
  if s.rawValid.get c then enterSample c (s.raw.get c) s else .next (s.markMissing c).advance

/-- `MEDU.I ch, imm12` (R114). -/
def execMeduI (c : Chan) (imm : BitVec 12) (s : State) : Result := enterSample c imm s

end Sys2Proof.Machine
end

