-- ==== Sys2Proof/Machine/RegisterInterface.lean ====
section
/-! DEFINITION. The register interface: OPEN, RDB, WRB, RDFIFO, CLOSE (40_register_interface.md). -/

namespace Sys2Proof.Machine

/-- `OPEN` (40_register_interface.md R80). -/
def execOpen (s : State) : Result :=
  if s.mapped = true ∨ s.closed = true then s.trap ⟨.access, 0xFFFFFFFF⟩
  else if s.env.mapOk = false then s.trap ⟨.mapFail, 0⟩
  else .next { s with mapped := true }.advance

/-- The byte latched by `RDB`: the bits the spec fixes, the others free (20_memory.md R43; log 10). -/
def State.latchByte (s : State) (b : WinByte) : Byte :=
  (b.value &&& b.known) ||| (s.freeWord.setWidth 8 &&& ~~~b.known)

/-- `RDB off` (R81). -/
def execRdb (off : BitVec 16) (s : State) : Result :=
  match s.memRead off.toNat with
  | .ok b => .next { s with rdata := s.latchByte b }.nextFree.advance
  | .error t => s.trap t

/-- `WRB off, val` (R82). -/
def execWrb (off : BitVec 16) (val : Byte) (s : State) : Result :=
  s.writeThen off.toNat val State.advance

/-- `RDFIFO` (R83). -/
def execRdfifo (s : State) : Result :=
  match s.fifoAccess with
  | some t => s.trap t
  | none => .next { s.fifoPop with fdata := s.fifoHead }.advance

/-- `CLOSE` (R84). -/
def execClose (s : State) : Result :=
  if s.mapped = false then s.trap ⟨.access, 0xFFFFFFFE⟩
  else .next { s with mapped := false, closed := true }.advance

end Sys2Proof.Machine
end

