-- ==== Sys2Proof/Machine/Sequencer.lean ====
section
/-! DEFINITION. The sequencer's own operations: CFGCHK, JMP, BSTOP, SLEEP, DBGLINE, HALT (45_sequencer.md). -/

namespace Sys2Proof.Machine

/-- `CFGCHK` (45_sequencer.md R152): the first failing test in this order. -/
def execCfgchk (s : State) : Result :=
  if s.cfg.clkDiv.toNat < 1 ∨ Config.clkDivMax < s.cfg.clkDiv.toNat then s.trap ⟨.badCfg, 1⟩
  else if avgCode s.cfg.avg = none then s.trap ⟨.badCfg, 2⟩
  else if s.windowSized = false then s.trap ⟨.badCfg, 3⟩
  else .next s.advance

/-- `JMP tgt` (R153). -/
def execJmp (tgt : BitVec 16) (s : State) : Result := .next { s with pc := tgt.toNat }

/-- `BSTOP tgt` (R154). -/
def execBstop (tgt : BitVec 16) (s : State) : Result :=
  if s.env.stopReq then .next { s with pc := tgt.toNat } else .next s.advance

/-- `SLEEP` (R155). -/
def execSleep (s : State) : Result :=
  match s.phase with
  | .sleeping t0 => .next (s.endWait t0 s.cfg.sleep.toNat)
  | _ => if s.cfg.sleep = 0 then .next s.advance else .next (s.startWait .sleeping)

/-- What `DBGLINE` records of channel `c` (R157). -/
def State.debugChannel (s : State) (c : Chan) : DebugChannel where
  raw := s.raw.get c
  filt := s.filt.get c
  loopCounter := (s.auto.get c).loopCounter
  loopLimit := (s.auto.get c).loopLimit
  offset := (s.auto.get c).offset
  offsetDelta := (s.auto.get c).offsetDelta
  offsetLimit := (s.auto.get c).offsetLimit
  inten := s.inten.get c
  nduty := s.nduty.get c

/-- The record `DBGLINE` appends (R157). -/
def State.debugRecord (s : State) : DebugRecord := ⟨.ofFn s.debugChannel, s.autoMode, s.rateChan⟩

/-- `DBGLINE` (R157). -/
def execDbgline (s : State) : Result :=
  if s.cfg.debug then .next { s with debug := s.debug ++ [s.debugRecord] }.advance else .next s.advance

/-- `HALT` (R156): `pc` unchanged, `fault` stays. -/
def execHalt (s : State) : Result := .next { s with faultRegs.exitStatus := 0, run := .halted }

end Sys2Proof.Machine
end

