-- ==== Sys2Proof/Machine/Dispatch.lean ====
section
/-! DEFINITION. One arm per operation: the meaning of an operation's next atomic step. -/

namespace Sys2Proof.Machine

def exec (i : Instr) (s : State) : Host.Outcome State Fault Refusal :=
  match i with
  -- 40_register_interface.md
  | .openMap => Sys2Proof.Machine.execOpen s
  | .rdb off => Sys2Proof.Machine.execRdb off s
  | .wrb off val => Sys2Proof.Machine.execWrb off val s
  | .rdfifo => Sys2Proof.Machine.execRdfifo s
  | .closeMap => Sys2Proof.Machine.execClose s
  -- 41_adc_controller.md
  | .adcinit => Sys2Proof.Machine.execAdcinit s
  | .adcdrain => Sys2Proof.Machine.execAdcdrain s
  | .adctrig mask => Sys2Proof.Machine.execAdctrig mask s
  | .adcsettle => Sys2Proof.Machine.execAdcsettle s
  | .adcharv => Sys2Proof.Machine.execAdcharv s
  | .adcstop => Sys2Proof.Machine.execAdcstop s
  | .adcshut => Sys2Proof.Machine.execAdcshut s
  -- 42_median_filter.md
  | .meduR ch => Sys2Proof.Machine.execMeduR ch s
  | .meduI ch imm => Sys2Proof.Machine.execMeduI ch imm s
  -- 43_auto_mode.md
  | .modedet => Sys2Proof.Machine.execModedet s
  | .rateupd => Sys2Proof.Machine.execRateupd s
  | .autostep ch => Sys2Proof.Machine.execAutostep ch s
  | .chinit => Sys2Proof.Machine.execChinit s
  -- 44_duty_controller.md
  | .dcrvR ch => Sys2Proof.Machine.execDcrvR ch s
  | .dcrvI ch imm => Sys2Proof.Machine.execDcrvI ch imm s
  | .dnorm => Sys2Proof.Machine.execDnorm s
  | .pwmapply ch => Sys2Proof.Machine.execPwmapply ch s
  | .pwmacq => Sys2Proof.Machine.execPwmacq s
  | .pwmrel => Sys2Proof.Machine.execPwmrel s
  -- 45_sequencer.md
  | .cfgchk => Sys2Proof.Machine.execCfgchk s
  | .jmp tgt => Sys2Proof.Machine.execJmp tgt s
  | .bstop tgt => Sys2Proof.Machine.execBstop tgt s
  | .sleep => Sys2Proof.Machine.execSleep s
  | .dbgline => Sys2Proof.Machine.execDbgline s
  | .halt => Sys2Proof.Machine.execHalt s

end Sys2Proof.Machine
end

