-- ==== Sys2Proof/Machine/Schedule.lean ====
section
/-! DEFINITION. Which agent makes the next atomic step, and what it does (20_memory.md R51; 45_sequencer.md R150). -/

namespace Sys2Proof.Machine

/-- SEQ's turn: while `run ≠ HALTED`, fetch, decode and execute the operation at `pc`; in HALTED no operation executes
(45_sequencer.md R150, 60_exceptions.md R177). Between the atomic steps of one operation `pc` and `PROG` stand still,
so the fetch gives the same operation (log 22). -/
def seqTurn (s : State) : Result :=
  if s.run = .halted then .next s
  else
    match s.fetch with
    | .ok i => exec i s
    | .error t => s.trap t

/-- One agent's turn. -/
def takeTurn : Turn → State → Result
  | .seq, s => seqTurn s
  | .conv k sample, s => .next (s.convert k sample)
  | .clkl, s => .next s.latchClock
  | .tick d, s => .next (s.tick d)
  | .stop, s => .next s.requestStop
  | .reset h, s => .next (s.hostReset h)

/-- The next turn of the schedule; SEQ's when the script is empty (log 7). -/
def State.nextTurn (s : State) : Turn :=
  match s.env.script with
  | t :: _ => t
  | [] => .seq

/-- The state with that turn taken off the script. -/
def State.dropTurn (s : State) : State := { s with env.script := s.env.script.tail }

/-- One atomic step of the block. -/
def scheduledStep (s : State) : Result := takeTurn s.nextTurn s.dropTurn

end Sys2Proof.Machine
end

