-- ==== Sys2Proof/Machine/Step.lean ====
section
/-! DEFINITION. One step of the machine, and the placing of an operation where the next step fetches. -/

namespace Sys2Proof.Machine

/-- One atomic step (20_memory.md R51). -/
def step (s : State) : Host.Outcome State Fault Refusal := scheduledStep s

/-- `PROG` with the word `w` at index `i`; indexes between its end and `i` hold the illegal word 0. -/
def progWith (prog : List Word) (i : Nat) (w : Word) : List Word :=
  (prog ++ List.replicate (i + 1 - prog.length) 0).set i w

/-- The operation whose bits are `w` stored at `PROG[pc]`, SEQ between operations and running, and SEQ's turn next:
the very next step fetches and runs it (log 17). -/
def State.withFetchWord (s : State) (nbits w : Nat) : State :=
  { s with
    prog := progWith s.prog s.pc (BitVec.ofNat 32 (w % 2 ^ nbits))
    run := .running
    phase := .idle
    env.script := if s.nextTurn = .seq then s.env.script else .seq :: s.env.script }

end Sys2Proof.Machine
end

