-- ==== Sys2Proof/Safety.lean ====
section
/-! DEFINITION. The words in which claims about the machine are stated: which elements of the state a step leaves
unchanged, what a fault entry is, the invariants, and repeated atomic steps of one operation. -/

namespace Sys2Proof.Machine

/-! ## Frames -/

/-- Every element of State (INVENTORY.md, '## State'), by name. -/
inductive Field where
  | params | cfg | prog | pc | run | phase
  | raw | rawValid | filt | inten | duty | nduty | applied | appliedValid | rdata | fdata
  | autoMode | rateChan | aStale | aMissing | aBadTag | aDup
  | fault | faultPc | faultInfo | exitStatus
  | clkReq | clkOn | adcEn | wpOff | clkDiv | stepEn | stepMode | stepAvg | stepInSel | stepDelay | fifo | pend
  | loopCounter | loopLimit | offset | offsetDelta | offsetLimit | tLoopRand | tOffRand | ratePend
  | speedMag | speedValid | win | wptr | mapped | closed
  | pwmHeld | pwmPeriod | pwmDuty | pwmWrites
  | now | mapOk | pwmOk | stopReq | draws | script | freeIx | log | debug
  deriving DecidableEq, Repr

/-- The element has the same value in both states. -/
def Field.Same (s t : State) : Field → Prop
  | .params => t.params = s.params
  | .cfg => t.cfg = s.cfg
  | .prog => t.prog = s.prog
  | .pc => t.pc = s.pc
  | .run => t.run = s.run
  | .phase => t.phase = s.phase
  | .raw => t.raw = s.raw
  | .rawValid => t.rawValid = s.rawValid
  | .filt => t.filt = s.filt
  | .inten => t.inten = s.inten
  | .duty => t.duty = s.duty
  | .nduty => t.nduty = s.nduty
  | .applied => t.applied = s.applied
  | .appliedValid => t.appliedValid = s.appliedValid
  | .rdata => t.rdata = s.rdata
  | .fdata => t.fdata = s.fdata
  | .autoMode => t.autoMode = s.autoMode
  | .rateChan => t.rateChan = s.rateChan
  | .aStale => t.anomalies.stale = s.anomalies.stale
  | .aMissing => t.anomalies.missing = s.anomalies.missing
  | .aBadTag => t.anomalies.badTag = s.anomalies.badTag
  | .aDup => t.anomalies.dup = s.anomalies.dup
  | .fault => t.faultRegs.fault = s.faultRegs.fault
  | .faultPc => t.faultRegs.faultPc = s.faultRegs.faultPc
  | .faultInfo => t.faultRegs.faultInfo = s.faultRegs.faultInfo
  | .exitStatus => t.faultRegs.exitStatus = s.faultRegs.exitStatus
  | .clkReq => t.adc.clkReq = s.adc.clkReq
  | .clkOn => t.adc.clkOn = s.adc.clkOn
  | .adcEn => t.adc.adcEn = s.adc.adcEn
  | .wpOff => t.adc.wpOff = s.adc.wpOff
  | .clkDiv => t.adc.clkDiv = s.adc.clkDiv
  | .stepEn => t.adc.stepEn = s.adc.stepEn
  | .stepMode => t.adc.stepMode = s.adc.stepMode
  | .stepAvg => t.adc.stepAvg = s.adc.stepAvg
  | .stepInSel => t.adc.stepInSel = s.adc.stepInSel
  | .stepDelay => t.adc.stepDelay = s.adc.stepDelay
  | .fifo => t.adc.fifo = s.adc.fifo
  | .pend => t.adc.pend = s.adc.pend
  | .loopCounter => ∀ c, (t.auto.get c).loopCounter = (s.auto.get c).loopCounter
  | .loopLimit => ∀ c, (t.auto.get c).loopLimit = (s.auto.get c).loopLimit
  | .offset => ∀ c, (t.auto.get c).offset = (s.auto.get c).offset
  | .offsetDelta => ∀ c, (t.auto.get c).offsetDelta = (s.auto.get c).offsetDelta
  | .offsetLimit => ∀ c, (t.auto.get c).offsetLimit = (s.auto.get c).offsetLimit
  | .tLoopRand => ∀ c, (t.auto.get c).tLoopRand = (s.auto.get c).tLoopRand
  | .tOffRand => ∀ c, (t.auto.get c).tOffRand = (s.auto.get c).tOffRand
  | .ratePend => ∀ c, (t.auto.get c).ratePend = (s.auto.get c).ratePend
  | .speedMag => t.speedMag = s.speedMag
  | .speedValid => t.speedValid = s.speedValid
  | .win => t.win = s.win
  | .wptr => t.wptr = s.wptr
  | .mapped => t.mapped = s.mapped
  | .closed => t.closed = s.closed
  | .pwmHeld => t.pwm.held = s.pwm.held
  | .pwmPeriod => t.pwm.period = s.pwm.period
  | .pwmDuty => t.pwm.duty = s.pwm.duty
  | .pwmWrites => t.pwm.writes = s.pwm.writes
  | .now => t.env.now = s.env.now
  | .mapOk => t.env.mapOk = s.env.mapOk
  | .pwmOk => t.env.pwmOk = s.env.pwmOk
  | .stopReq => t.env.stopReq = s.env.stopReq
  | .draws => t.env.draws = s.env.draws
  | .script => t.env.script = s.env.script
  | .freeIx => t.env.freeIx = s.env.freeIx
  | .log => t.log = s.log
  | .debug => t.debug = s.debug

/-- Every element of the state outside `changed` is the same in `t` as in `s`. -/
def OnlyChanges (changed : List Field) (s t : State) : Prop := ∀ f : Field, f ∉ changed → f.Same s t

/-- Every channel's element but `c`'s is the same. -/
def OthersKept {α : Type} (c : Chan) (q q' : Quad α) : Prop := ∀ d : Chan, d ≠ c → q'.get d = q.get d

/-! ## Fault entry -/

/-- `t` is `s` after `raise E(info)` (60_exceptions.md R176): the fault registers, the log and `run` as the rule says,
everything else unchanged. (`phase` is the model's own; the free-value counter moves only when `pc` is 65536, log 12.) -/
def FaultEntered (f : BlockFault) (info : Word) (s t : State) : Prop :=
  t.faultRegs.fault = f.code ∧ t.faultRegs.faultInfo = info ∧ t.faultRegs.exitStatus = f.code ∧
    (s.pc < 65536 → t.faultRegs.faultPc = BitVec.ofNat 16 s.pc ∧ t.env.freeIx = s.env.freeIx) ∧
    t.log = s.log ++ [.fatal f.code info] ∧ t.run = .halted ∧ t.phase = .idle ∧
    OnlyChanges [.fault, .faultInfo, .faultPc, .exitStatus, .log, .run, .phase, .freeIx] s t

/-- The operation's step from `s` raises the fault. -/
def Raises (i : Instr) (s : State) (f : BlockFault) (info : Word) : Prop :=
  ∃ t, exec i s = .next t ∧ FaultEntered f info s t

/-- The operation's step from `s` completes the operation: it answers a next state whose `pc` is `pc + 1`, in which only
`pc` and the elements of `changed` may differ, and of which `P` holds. -/
def Completes (i : Instr) (s : State) (changed : List Field) (P : State → Prop) : Prop :=
  ∃ t, exec i s = .next t ∧ t.pc = s.pc + 1 ∧ OnlyChanges (.pc :: changed) s t ∧ P t

/-- The operation's step from `s` does one atomic step of it and leaves `pc` where it is: only the elements of
`changed` may differ, and `P` holds of the next state. -/
def Proceeds (i : Instr) (s : State) (changed : List Field) (P : State → Prop) : Prop :=
  ∃ t, exec i s = .next t ∧ OnlyChanges changed s t ∧ P t

/-- `RDB off` completes, latching a byte of which `P` holds. -/
def LatchesByte (s : State) (off : Nat) (P : Byte → Prop) : Prop :=
  Completes (.rdb (BitVec.ofNat 16 off)) s [.rdata, .freeIx] fun t => P t.rdata

/-- `WRB off, v` completes, changing only the elements of `changed`, and `P` holds of the window registers after it. -/
def WritesByte (s : State) (off : Nat) (v : Byte) (changed : List Field) (P : AdcSide → Prop) : Prop :=
  Completes (.wrb (BitVec.ofNat 16 off) v) s changed fun t => P t.adc

/-! ## An advance of an active engine (43_auto_mode.md R127 to R132), over the integers -/

/-- The loop limit after step 1: the table's magnitude when a rate change is pending (R128). -/
def State.stepLimit (s : State) (c : Chan) : Nat :=
  if (s.auto.get c).ratePend then speedTable s.params (s.filt.get s.rateChan).toNat else (s.auto.get c).loopLimit.toNat

/-- The offset after step 2: moved when the counter reaches the limit, saturating at `±offsetLimit` (R128). -/
def State.stepOffset (s : State) (c : Chan) : Int :=
  let a := s.auto.get c
  if s.stepLimit c ≤ a.loopCounter.toNat + 1 then
    min (max (a.offset.toInt + a.offsetDelta.toInt) (-(a.offsetLimit.toNat : Int))) a.offsetLimit.toNat
  else a.offset.toInt

/-- Step 3: the advance is a boundary hit, one of the two guards firing in the direction of travel (R129). -/
def State.StepHits (s : State) (c : Chan) : Prop :=
  let a := s.auto.get c
  let b : Int := (s.filt.get c).toNat + s.stepOffset c
  (0 < a.offsetDelta.toInt ∧ ((a.offsetLimit.toNat : Int) ≤ s.stepOffset c ∨ 4000 < b)) ∨
    (a.offsetDelta.toInt < 0 ∧ (s.stepOffset c ≤ -(a.offsetLimit.toNat : Int) ∨ b < 10))

/-- The offset-size randomization's cooldown is over (R131). -/
abbrev State.OffsetCheckDue (s : State) (c : Chan) : Prop :=
  (s.auto.get c).tOffRand.toNat + 5000 ≤ s.env.now.toNat

/-- The loop-size randomization's cooldown is over (R131). -/
abbrev State.LoopCheckDue (s : State) (c : Chan) : Prop :=
  (s.auto.get c).tLoopRand.toNat + 5000 ≤ s.env.now.toNat

/-- `t` is `s` after steps 1 to 3 on channel `c`, whatever step 4 did: the counter reset or advanced, the pending flag
clear, the sign of `offsetDelta` turned exactly at a hit, every other channel as before (R128, R129). -/
def AdvancesChannel (s : State) (c : Chan) (t : State) : Prop :=
  let a := s.auto.get c
  let b := t.auto.get c
  (b.loopCounter.toNat = if s.stepLimit c ≤ a.loopCounter.toNat + 1 then 0 else a.loopCounter.toNat + 1) ∧
    b.ratePend = false ∧ (s.StepHits c → b.offsetDelta.toInt = -a.offsetDelta.toInt) ∧
    (¬ s.StepHits c → b.offsetDelta = a.offsetDelta) ∧ OthersKept c s.auto t.auto ∧ OthersKept c s.inten t.inten

/-! ## Repeated atomic steps -/

/-- `n` atomic steps of SEQ in the operation `i`, no other agent between. -/
def execTimes : Nat → Instr → State → Result
  | 0, _, s => .next s
  | n + 1, i, s =>
    match exec i s with
    | .next t => execTimes n i t
    | .fault f => .fault f
    | .refused r => .refused r

/-! ## Invariants -/

/-- The canonical form of the machine's memories: with a legal `cfgN` every channel has N slots and a write pointer
inside them (10_state.md R26); the FIFO holds at most `FIFO_DEPTH` words (R28); `PROG` at most 65536 (20_memory.md
R41). -/
def Memory.wf (s : State) : Bool :=
  decide (s.windowSized = true → ∀ c : Chan, (s.win.get c).length = s.cfg.n.toNat ∧
    (s.wptr.get c).toNat < s.cfg.n.toNat) &&
  decide (s.adc.fifo.length ≤ s.params.fifoDepth) && decide (s.prog.length ≤ 65536)

/-- The environment is one the spec allows: a program the host loads at a reset is at most 65536 words long
(20_memory.md R41). -/
def LegalScript (s : State) : Prop := ∀ h, Turn.reset h ∈ s.env.script → h.prog.length ≤ 65536

/-- The auto-mode invariant of one channel (10_state.md R21, 43_auto_mode.md R133 (a), (c)). -/
def AutoState.Bounded (p : Params) (a : AutoState) : Prop :=
  (-(a.offsetLimit.toNat : Int) ≤ a.offset.toInt ∧ a.offset.toInt ≤ a.offsetLimit.toNat) ∧
    (a.offsetDelta.toInt = p.fixedStep ∨ a.offsetDelta.toInt = -(p.fixedStep : Int)) ∧
    a.offsetLimit.toNat ≤ p.offsetLimitMax ∧
    (1 ≤ a.loopLimit.toNat ∧ a.loopLimit.toNat ≤ loopMax p) ∧ a.loopCounter.toNat ≤ loopMax p

/-- The auto-mode invariant (10_state.md R21), with the legal parameters it rests on. -/
def EngineInv (s : State) : Prop := s.params.Legal ∧ ∀ c, (s.auto.get c).Bounded s.params

/-- The phase is one of the operation `i`. -/
def Phase.of (i : Instr) : Phase → Prop
  | .idle => True
  | .adcinitPoll _ => i = .adcinit
  | .adcinitWrite _ => i = .adcinit
  | .drainCount _ => i = .adcdrain
  | .drainRead _ => i = .adcdrain
  | .harvCount => i = .adcharv
  | .harvRead => i = .adcharv
  | .settling _ => i = .adcsettle
  | .sleeping _ => i = .sleep

/-- The phase is inside one of the three waits (10_state.md R14). -/
def Phase.waits : Phase → Bool
  | .adcinitPoll _ => true
  | .settling _ => true
  | .sleeping _ => true
  | .idle => false
  | .adcinitWrite _ => false
  | .drainCount _ => false
  | .drainRead _ => false
  | .harvCount => false
  | .harvRead => false

/-- The sequencer's invariant: `run` is WAITING exactly inside a wait and HALTED only between operations
(10_state.md R14); an operation that has begun is the one at `pc`, so it is executed in full before the next is
fetched (45_sequencer.md R150); and `fault` is 0 until the block halts, `exitStatus` the fault's code after
(10_state.md R17). -/
def SequencerInv (s : State) : Prop :=
  (s.run = .waiting ↔ s.phase.waits = true) ∧ (s.run = .halted → s.phase = .idle) ∧
    (s.phase = .idle ∨ ∃ i, s.fetch = .ok i ∧ s.phase.of i) ∧
    (s.run ≠ .halted → s.faultRegs.fault = 0) ∧ (s.run = .halted → s.faultRegs.exitStatus = s.faultRegs.fault) ∧
    s.pc ≤ 65536 ∧ s.prog.length ≤ 65536

end Sys2Proof.Machine
end

