-- ==== Sys2Proof/Certificates/Slice0/Obligations.lean ====
section
/-! DEFINITION. The statements for the provers, from the numbered rules of spec/. -/

open Sys2Proof Sys2Proof.Machine

/-! ## Encoding (30_encoding.md) -/

/-- No bit of an encoding is dropped: the decoder reads back every instruction, with every operand at every value its
field admits (30_encoding.md R60 to R63). Every term of Instr is well formed (Laws/PerInstr.lean), so none is shut out. -/
def Obligations.DecodeOfEncodeIsTheInstruction : Prop :=
  ∀ i : Instr, decode (encode i) = .ok i

/-- Each word has one meaning at most: a word the decoder accepts is the encoding of what it reads (R60, R63). -/
def Obligations.EncodeOfDecodeIsTheWord : Prop := ∀ (w : Word) (i : Instr), decode w = .ok i → encode i = w

/-- The decoder accepts exactly the words that match a row of the opcode map, as that row's operation, and no word
matches two rows (30_encoding.md R62, R63). -/
def Obligations.DecoderFollowsOpcodeMap : Prop :=
  (∀ (w : Word) (i : Instr), decode w = .ok i → ∃ r ∈ opcodeTable, r.mnemonic = i.mnemonic ∧ w &&& r.mask = r.bits) ∧
  (∀ (w : Word) (r : OpcodeRow), r ∈ opcodeTable → w &&& r.mask = r.bits →
    ∃ i, decode w = .ok i ∧ i.mnemonic = r.mnemonic) ∧
  (∀ (w : Word) (r r' : OpcodeRow), r ∈ opcodeTable → r' ∈ opcodeTable → w &&& r.mask = r.bits →
    w &&& r'.mask = r'.bits → r = r')

/-- Words written out from the formats, one or more of every family (95_test_vectors.md 2.1). -/
def Obligations.WordsOfTheSpecDecode : Prop :=
  decode 0x11003000 = .ok (.rdb 0x30) ∧ decode 0x12000C0F = .ok (.wrb 0x0C 0x0F) ∧
  decode 0x22000005 = .ok (.adctrig 5) ∧ decode 0x30C00000 = .ok (.meduR 3) ∧ decode 0x31400005 = .ok (.meduI 1 5) ∧
  decode 0x42800000 = .ok (.autostep 2) ∧ decode 0x514007D0 = .ok (.dcrvI 1 2000) ∧
  decode 0x53400000 = .ok (.pwmapply 1) ∧ decode 0x62000021 = .ok (.bstop 33) ∧ decode 0x65000000 = .ok .halt ∧
  decode 0x00000000 = .error .unassignedOpcode ∧ decode 0x66000000 = .error .unassignedOpcode ∧
  decode 0x10000001 = .error .mustBeZero ∧ decode 0x30200000 = .error .mustBeZero ∧
  decode 0x51010000 = .error .mustBeZero

/-! ## The sequencer's step, faults, the other agents (45_sequencer.md, 60_exceptions.md, 20_memory.md) -/

/-- In SEQ's turn, while not halted, a step is exec of the operation the word at `pc` decodes to, the turn taken off
the script (45_sequencer.md R150 (2) to (4)). -/
def Obligations.StepRunsTheDecodedInstruction : Prop :=
  ∀ (s : State) (w : Word) (i : Instr), s.nextTurn = .seq → s.run ≠ .halted → s.prog[s.pc]? = some w →
    decode w = .ok i → step s = exec i s.dropTurn

/-- A `pc` outside `PROG` and a word that matches no row raise E_ILLOP, the first with 0xFFFF0000 | pc, the second
with the word (45_sequencer.md R150, 30_encoding.md R68). -/
def Obligations.IllegalFetchRaisesIllop : Prop :=
  ∀ s : State, s.nextTurn = .seq → s.run ≠ .halted →
    (s.prog.length ≤ s.pc →
      ∃ t, step s = .next t ∧ FaultEntered .illOp (0xFFFF0000 ||| BitVec.ofNat 32 s.pc) s.dropTurn t) ∧
    (∀ w, s.prog[s.pc]? = some w → (∀ r ∈ opcodeTable, w &&& r.mask ≠ r.bits) →
      ∃ t, step s = .next t ∧ FaultEntered .illOp w s.dropTurn t)

/-- Fault entry writes the fault registers, logs, halts, and changes nothing else; the codes are those of the table
(60_exceptions.md R170, R176). -/
def Obligations.FaultEntryIsPrecise : Prop :=
  (∀ (s : State) (f : BlockFault) (info : Word), FaultEntered f info s (s.raise f info)) ∧
  [BlockFault.badCfg, .mapFail, .pwmFail, .clkTimeout, .access, .splitFifo, .illOp].map BlockFault.code =
    [1, 2, 3, 4, 5, 6, 7]

/-- In HALTED no operation executes, and nothing but the host's reset leaves HALTED or changes the fault registers; reset
leaves it and clears `fault` (60_exceptions.md R177, 10_state.md R14). -/
def Obligations.HaltedBlockExecutesNothing : Prop :=
  ∀ s : State, s.run = .halted →
    (s.nextTurn = .seq → step s = .next s.dropTurn) ∧
    ((∀ h, s.nextTurn ≠ .reset h) →
      ∃ t, step s = .next t ∧ t.run = .halted ∧ t.pc = s.pc ∧ t.faultRegs = s.faultRegs ∧
        OnlyChanges [.fifo, .pend, .clkOn, .now, .stopReq, .script] s t) ∧
    (∀ h, s.nextTurn = .reset h → ∃ t, step s = .next t ∧ t.run = .running ∧ t.faultRegs.fault = 0)

/-- CONV(k) is enabled exactly under the rule's six conditions, pushes TAG = k and DATA = the sample, other bits 0, at
the tail, clears `pend[k]` and does nothing else; when not enabled its turn does nothing (41_adc_controller.md R92; the idle turn
is the model's choice, log 8). -/
def Obligations.ConverterPushesOneTaggedWord : Prop :=
  ∀ (s : State) (k : Chan) (x : Sample), s.nextTurn = .conv k x → s.params.FifoLegal →
    (s.adc.adcEn = true → s.adc.clkOn = true → s.adc.stepEn.getLsbD k.val = true → s.adc.pend.get k = true →
      s.adc.stepMode.get k = 0 → s.adc.fifo.length < s.params.fifoDepth →
      ∃ (t : State) (w : Word), step s = .next t ∧ t.adc.fifo = s.adc.fifo ++ [w] ∧
        w.toNat = k.val * 2 ^ s.params.tagLo + x.toNat * 2 ^ s.params.dataLo ∧ fifoTag s.params w = k.val ∧
        fifoSample s.params w = x ∧ t.adc.pend.get k = false ∧ OthersKept k s.adc.pend t.adc.pend ∧
        OnlyChanges [.fifo, .pend, .script] s t) ∧
    ((s.adc.adcEn = false ∨ s.adc.clkOn = false ∨ s.adc.stepEn.getLsbD k.val = false ∨ s.adc.pend.get k = false ∨
      s.adc.stepMode.get k ≠ 0 ∨ s.params.fifoDepth ≤ s.adc.fifo.length) → step s = .next s.dropTurn)

/-- CLKL copies `clkReq` to `clkOn`; ENV advances `now`; the host raises `stopReq`; none of them touches anything else
(41_adc_controller.md R93, 20_memory.md R51, 10_state.md R36, R37). -/
def Obligations.LatchTimeAndStopTurns : Prop :=
  ∀ s : State,
    (s.nextTurn = .clkl → ∃ t, step s = .next t ∧ t.adc.clkOn = s.adc.clkReq ∧ OnlyChanges [.clkOn, .script] s t) ∧
    (∀ d, s.nextTurn = .tick d → s.env.now.toNat + d < 2 ^ 64 →
      ∃ t, step s = .next t ∧ t.env.now.toNat = s.env.now.toNat + d ∧ OnlyChanges [.now, .script] s t) ∧
    (s.nextTurn = .stop → ∃ t, step s = .next t ∧ t.env.stopReq = true ∧ OnlyChanges [.stopReq, .script] s t)

/-- Only the converter pushes (10_state.md R28): a step of the sequencer leaves the FIFO or takes its head (20_memory.md
R45), and with no step pending no other agent puts a word in or makes a step pending, so after `STEPEN` is written 0 no
further word arrives (20_memory.md R52 (a)). -/
def Obligations.OnlyPendingStepsFillTheFifo : Prop :=
  ∀ s t : State, step s = .next t →
    (s.nextTurn = .seq → t.adc.fifo = s.adc.fifo ∨ t.adc.fifo = s.adc.fifo.tail) ∧
    (s.nextTurn ≠ .seq → s.adc.pend = .fill false → t.adc.fifo = s.adc.fifo ∧ t.adc.pend = .fill false)

/-- No operation and no agent writes the configuration registers, `PROG`, the parameters or the platform answers; only
a reset loads them (10_state.md R10, 20_memory.md R41, R55). -/
def Obligations.ConfigurationAndProgramAreConstant : Prop :=
  ∀ s t : State, (∀ h, s.nextTurn ≠ .reset h) → step s = .next t →
    t.cfg = s.cfg ∧ t.prog = s.prog ∧ t.params = s.params ∧ t.env.mapOk = s.env.mapOk ∧ t.env.pwmOk = s.env.pwmOk

/-- `now` is non-decreasing over every step (10_state.md R36); the anomaly flags and `closed` are sticky, `stopReq` never
falls, and the log only grows, until a reset (10_state.md R16, R31, R37, R38). -/
def Obligations.TimeAndStickyFlagsOnlyGrow : Prop :=
  (∀ s t : State, step s = .next t → s.env.now.toNat ≤ t.env.now.toNat) ∧
  ∀ s t : State, (∀ h, s.nextTurn ≠ .reset h) → step s = .next t →
    (s.anomalies.stale = true → t.anomalies.stale = true) ∧ (s.anomalies.missing = true → t.anomalies.missing = true) ∧
    (s.anomalies.badTag = true → t.anomalies.badTag = true) ∧ (s.anomalies.dup = true → t.anomalies.dup = true) ∧
    (s.closed = true → t.closed = true) ∧ (s.env.stopReq = true → t.env.stopReq = true) ∧ s.log <+: t.log ∧
    s.debug <+: t.debug

/-! ## Invariants that every step keeps -/

/-- The memories keep their canonical form: N slots a channel and a write pointer inside them, at most `FIFO_DEPTH`
words, at most 65536 program words (10_state.md R26, R28, 20_memory.md R41). -/
def Obligations.StepKeepsMemoryWf : Prop :=
  ∀ s t : State, Memory.wf s = true → LegalScript s → step s = .next t → Memory.wf t = true ∧ LegalScript t

/-- The auto-mode invariant, from every state that has it, for every draw: `-offsetLimit ≤ offset ≤ offsetLimit`,
`offsetDelta = ±FIXED_STEP`, `1 ≤ loopLimit ≤ LoopMax`, `offsetLimit ≤ OFFSET_LIMIT_MAX`, `loopCounter ≤ LoopMax`
(10_state.md R21, 43_auto_mode.md R133 (a), (c)). -/
def Obligations.StepKeepsEngineInvariant : Prop :=
  ∀ s t : State, EngineInv s → step s = .next t → EngineInv t

/-- The sequencer's invariant: `run` is WAITING exactly inside a wait; an operation that has begun is the one at `pc`,
until it is done; `fault` is 0 until the block halts and `exitStatus` is its code after (10_state.md R14, R17,
45_sequencer.md R150). -/
def Obligations.StepKeepsSequencerInvariant : Prop :=
  ∀ s t : State, SequencerInv s → LegalScript s → step s = .next t → SequencerInv t

/-- The state after reset: every element the rule gives a value has it (70_reset_and_hazards.md R190), `PROG` holds the
37 words of `PROG_MAIN` (45_sequencer.md R151; that they are there at reset is the model's, log 17), and all three
invariants hold, so they hold of every state a run reaches from it. The configuration's values and the parameter set are
the model's choices (log 3, log 1); of what the rule leaves unspecified nothing is claimed. -/
def Obligations.ResetValuesAndInvariants : Prop :=
  let s := State.reset
  (s.pc = 0 ∧ s.run = .running ∧ s.faultRegs.fault = 0 ∧ s.autoMode = false ∧ s.rateChan = 0 ∧
    s.anomalies = ⟨false, false, false, false⟩ ∧ s.speedMag = 0 ∧ s.speedValid = false ∧ s.mapped = false ∧
    s.closed = false ∧ s.pwm.writes = 0 ∧ s.log = [] ∧ s.debug = []) ∧
  (∀ c, s.raw.get c = 0 ∧ s.rawValid.get c = false ∧ s.filt.get c = 0 ∧ s.inten.get c = 0 ∧ s.duty.get c = 0 ∧
    s.nduty.get c = 0 ∧ s.appliedValid.get c = false ∧ s.wptr.get c = 0 ∧ s.pwm.held.get c = false) ∧
  (∀ c, (s.auto.get c).loopCounter = 0 ∧ (s.auto.get c).loopLimit = 1 ∧ (s.auto.get c).offset = 0 ∧
    (s.auto.get c).offsetDelta.toInt = s.params.fixedStep ∧ (s.auto.get c).offsetLimit = 0 ∧
    (s.auto.get c).tLoopRand = 0 ∧ (s.auto.get c).tOffRand = 0 ∧ (s.auto.get c).ratePend = false) ∧
  (1 ≤ s.cfg.n.toNat ∧ s.cfg.n.toNat ≤ 65535 ∧
    ∀ c, s.win.get c = List.replicate s.cfg.n.toNat s.params.initSample) ∧
  s.prog =
    [0x60000000, 0x10000000, 0x54000000, 0x20000000, 0x43000000,
      0x21000000, 0x2200000F, 0x23000000, 0x24000000, 0x25000000, 0x40000000,
      0x30000000, 0x30400000, 0x30800000, 0x30C00000, 0x41000000,
      0x42000000, 0x42400000, 0x42800000, 0x42C00000,
      0x50000000, 0x50400000, 0x50800000, 0x50C00000, 0x52000000,
      0x53000000, 0x53400000, 0x53800000, 0x53C00000,
      0x64000000, 0x62000021, 0x63000000, 0x61000005,
      0x26000000, 0x55000000, 0x14000000, 0x65000000] ∧
  Memory.wf s = true ∧ LegalScript s ∧ EngineInv s ∧ SequencerInv s

/-! ## Reset (70_reset_and_hazards.md) -/

/-- Reset at any point of a run, between any two atomic steps: the block's own state takes the reset values, whatever
it was; the hardware side, the PWM pairs, the time and the parameters are not touched (70_reset_and_hazards.md R190,
R191, R192; what the host loads is the model's `HostLoad`, log 18). -/
def Obligations.HostResetAtAnyPoint : Prop :=
  ∀ (s : State) (h : HostLoad), s.nextTurn = .reset h → ∃ t, step s = .next t ∧
    (t.cfg = h.cfg ∧ t.prog = h.prog ∧ t.env.mapOk = h.mapOk ∧ t.env.pwmOk = h.pwmOk ∧ t.env.stopReq = h.stopReq) ∧
    (t.pc = 0 ∧ t.run = .running ∧ t.faultRegs.fault = 0 ∧ t.autoMode = false ∧ t.rateChan = 0 ∧
      t.anomalies = ⟨false, false, false, false⟩ ∧ t.speedMag = 0 ∧ t.speedValid = false ∧ t.mapped = false ∧
      t.closed = false ∧ t.pwm.writes = 0 ∧ t.log = [] ∧ t.debug = []) ∧
    (∀ c, t.raw.get c = 0 ∧ t.rawValid.get c = false ∧ t.filt.get c = 0 ∧ t.inten.get c = 0 ∧ t.duty.get c = 0 ∧
      t.nduty.get c = 0 ∧ t.appliedValid.get c = false ∧ t.wptr.get c = 0 ∧ t.pwm.held.get c = false) ∧
    (∀ c, (t.auto.get c).loopCounter = 0 ∧ (t.auto.get c).loopLimit = 1 ∧ (t.auto.get c).offset = 0 ∧
      (s.params.EngineLegal → (t.auto.get c).offsetDelta.toInt = s.params.fixedStep) ∧ (t.auto.get c).offsetLimit = 0 ∧
      (t.auto.get c).tLoopRand = 0 ∧ (t.auto.get c).tOffRand = 0 ∧ (t.auto.get c).ratePend = false) ∧
    (∀ c, 1 ≤ h.cfg.n.toNat → h.cfg.n.toNat ≤ 65535 →
      t.win.get c = List.replicate h.cfg.n.toNat s.params.initSample) ∧
    (t.adc = s.adc ∧ t.pwm.period = s.pwm.period ∧ t.pwm.duty = s.pwm.duty ∧ t.env.now = s.env.now ∧
      t.params = s.params)

/-! ## Register interface (40_register_interface.md, 20_memory.md) -/

/-- `OPEN`: maps when it may and can; E_ACCESS before E_MAPFAIL (40_register_interface.md R80, 60_exceptions.md R174). -/
def Obligations.OpenMapsOnce : Prop :=
  encode .openMap = 0x10000000 ∧ ∀ s : State,
    (s.mapped = true ∨ s.closed = true → Raises .openMap s .access 0xFFFFFFFF) ∧
    (s.mapped = false → s.closed = false → s.env.mapOk = false → Raises .openMap s .mapFail 0) ∧
    (s.mapped = false → s.closed = false → s.env.mapOk = true →
      Completes .openMap s [.mapped] fun t => t.mapped = true)

/-- `RDB off`: E_ACCESS when not mapped or out of the window, E_SPLITFIFO on a byte of `FIFODATA`, a byte latched and
no side effect at every other offset, one of no register included (40_register_interface.md R81, 20_memory.md R47,
R48). -/
def Obligations.RdbFaultsOrLatchesAByte : Prop :=
  ∀ (s : State) (off : BitVec 16),
    encode (.rdb off) = 0x11000000 ||| off.setWidth 32 <<< 8 ∧
    (s.mapped = false ∨ s.params.winSize ≤ off.toNat → Raises (.rdb off) s .access (off.setWidth 32)) ∧
    (s.mapped = true → s.params.WindowLegal → s.params.offFifodata ≤ off.toNat →
      off.toNat < s.params.offFifodata + 4 → Raises (.rdb off) s .splitFifo (off.setWidth 32)) ∧
    (s.mapped = true → off.toNat < s.params.winSize →
      (off.toNat < s.params.offFifodata ∨ s.params.offFifodata + 4 ≤ off.toNat) → s.params.WindowLegal →
      Completes (.rdb off) s [.rdata, .freeIx] fun _ => True)

/-- What `RDB` latches, register by register: the bits the rule fixes; any other bit, byte or offset of no register reads
as any value, and a byte read changes nothing else (20_memory.md R43; the free values are log 10). -/
def Obligations.RdbReadsTheRegisters : Prop :=
  ∀ (s : State) (k : Chan), s.mapped = true → s.params.WindowLegal →
    LatchesByte s s.params.offClkctrl (fun b => b.getLsbD 0 = s.adc.clkOn) ∧
    LatchesByte s s.params.offCtrl (fun b => b.getLsbD 0 = s.adc.adcEn ∧ b.getLsbD 1 = s.adc.wpOff) ∧
    LatchesByte s s.params.offClkdiv (fun b => b = s.adc.clkDiv.extractLsb' 0 8) ∧
    LatchesByte s (s.params.offClkdiv + 1) (fun b => b = s.adc.clkDiv.extractLsb' 8 8) ∧
    LatchesByte s s.params.offStepen (fun b => b.extractLsb' 0 4 = s.adc.stepEn) ∧
    LatchesByte s (s.params.offStepcfg.get k)
      (fun b => b.extractLsb' 0 2 = s.adc.stepMode.get k ∧ b.extractLsb' 2 3 = s.adc.stepAvg.get k) ∧
    LatchesByte s (s.params.offStepcfg.get k + 1) (fun b => b.extractLsb' 0 4 = s.adc.stepInSel.get k) ∧
    LatchesByte s (s.params.offStepdly.get k) (fun b => b = s.adc.stepDelay.get k) ∧
    (s.adc.fifo.length ≤ 255 → LatchesByte s s.params.offFifocnt (fun b => b.toNat = s.adc.fifo.length)) ∧
    (∀ off < s.params.winSize, (off < s.params.offFifodata ∨ s.params.offFifodata + 4 ≤ off) →
      LatchesByte s off (fun _ => True))

/-- `WRB off, val` faults when not mapped, out of the window, or at an offset of no register, and otherwise changes the
window registers' backing state alone (40_register_interface.md R82). -/
def Obligations.WrbFaultsOrWritesTheWindow : Prop :=
  ∀ (s : State) (off : BitVec 16) (v : Byte),
    encode (.wrb off v) = 0x12000000 ||| off.setWidth 32 <<< 8 ||| v.setWidth 32 ∧
    (s.mapped = false ∨ s.params.winSize ≤ off.toNat ∨
        (∀ o ∈ s.params.offsets, off.toNat < o ∨ o + 4 ≤ off.toNat) →
      Raises (.wrb off v) s .access (off.setWidth 32)) ∧
    (s.mapped = true → off.toNat < s.params.winSize → (∃ o ∈ s.params.offsets, o ≤ off.toNat ∧ off.toNat < o + 4) →
      Completes (.wrb off v) s
        [.clkReq, .adcEn, .wpOff, .clkDiv, .stepEn, .pend, .stepMode, .stepAvg, .stepInSel, .stepDelay] fun _ => True)

/-- What `WRB` writes, register by register, what it leaves, and the refusal of a write to an offset of no register
(20_memory.md R44, 41_adc_controller.md R91). -/
def Obligations.WrbWritesTheRegisters : Prop :=
  ∀ (s : State) (k : Chan) (v : Byte), s.mapped = true → s.params.WindowLegal →
    WritesByte s s.params.offClkctrl v [.clkReq] (fun a => a.clkReq = v.getLsbD 0) ∧
    WritesByte s s.params.offCtrl v [.adcEn, .wpOff] (fun a => a.adcEn = v.getLsbD 0 ∧ a.wpOff = v.getLsbD 1) ∧
    WritesByte s s.params.offClkdiv v [.clkDiv]
      (fun a => a.clkDiv.extractLsb' 0 8 = v ∧ a.clkDiv.extractLsb' 8 8 = s.adc.clkDiv.extractLsb' 8 8) ∧
    WritesByte s (s.params.offClkdiv + 1) v [.clkDiv]
      (fun a => a.clkDiv.extractLsb' 8 8 = v ∧ a.clkDiv.extractLsb' 0 8 = s.adc.clkDiv.extractLsb' 0 8) ∧
    WritesByte s s.params.offStepen v [.stepEn, .pend]
      (fun a => a.stepEn = v.extractLsb' 0 4 ∧ ∀ j, a.pend.get j = v.getLsbD j.val) ∧
    (s.adc.wpOff = true →
      WritesByte s (s.params.offStepcfg.get k) v [.stepMode, .stepAvg]
        (fun a => a.stepMode.get k = v.extractLsb' 0 2 ∧ a.stepAvg.get k = v.extractLsb' 2 3 ∧
          OthersKept k s.adc.stepMode a.stepMode ∧ OthersKept k s.adc.stepAvg a.stepAvg) ∧
      WritesByte s (s.params.offStepcfg.get k + 1) v [.stepInSel]
        (fun a => a.stepInSel.get k = v.extractLsb' 0 4 ∧ OthersKept k s.adc.stepInSel a.stepInSel) ∧
      WritesByte s (s.params.offStepdly.get k) v [.stepDelay]
        (fun a => a.stepDelay.get k = v ∧ OthersKept k s.adc.stepDelay a.stepDelay)) ∧
    (s.adc.wpOff = false →
      WritesByte s (s.params.offStepcfg.get k) v [] (fun _ => True) ∧
      WritesByte s (s.params.offStepcfg.get k + 1) v [] (fun _ => True) ∧
      WritesByte s (s.params.offStepdly.get k) v [] (fun _ => True)) ∧
    (∀ i < 4, WritesByte s (s.params.offFifocnt + i) v [] (fun _ => True) ∧
      WritesByte s (s.params.offFifodata + i) v [] (fun _ => True)) ∧
    (∀ i < 4, 1 ≤ i →
      (∀ o ∈ [s.params.offClkctrl, s.params.offCtrl, s.params.offStepen, s.params.offStepdly.get k],
        WritesByte s (o + i) v [] (fun _ => True)) ∧
      (2 ≤ i → WritesByte s (s.params.offClkdiv + i) v [] (fun _ => True) ∧
        WritesByte s (s.params.offStepcfg.get k + i) v [] (fun _ => True))) ∧
    (∀ off : BitVec 16, (∀ o ∈ s.params.offsets, off.toNat < o ∨ o + 4 ≤ off.toNat) →
      Raises (.wrb off v) s .access (off.setWidth 32))

/-- `RDFIFO`: the head word latched and removed in one step; an empty FIFO stays empty; E_ACCESS when not mapped
(40_register_interface.md R83, 20_memory.md R45). -/
def Obligations.RdfifoPopsTheHead : Prop :=
  encode .rdfifo = 0x13000000 ∧ ∀ s : State,
    (s.mapped = false → Raises .rdfifo s .access (BitVec.ofNat 32 s.params.offFifodata)) ∧
    (s.mapped = true → ∀ w rest, s.adc.fifo = w :: rest →
      Completes .rdfifo s [.fdata, .fifo] fun t => t.fdata = w ∧ t.adc.fifo = rest) ∧
    (s.mapped = true → s.adc.fifo = [] → Completes .rdfifo s [.fdata, .freeIx] fun t => t.adc.fifo = [])

/-- `CLOSE`: releases the mapping once and for all; E_ACCESS without a mapping (40_register_interface.md R84). -/
def Obligations.CloseReleasesTheMapping : Prop :=
  encode .closeMap = 0x14000000 ∧ ∀ s : State,
    (s.mapped = false → Raises .closeMap s .access 0xFFFFFFFE) ∧
    (s.mapped = true → Completes .closeMap s [.mapped, .closed] fun t => t.mapped = false ∧ t.closed = true)

/-- Without a mapping `ADCINIT`, `ADCDRAIN`, `ADCHARV` and `ADCTRIG` raise E_ACCESS at their first access
(41_adc_controller.md R90, 20_memory.md R47; for `ADCSTOP` and `ADCSHUT` see TriggerStopAndShutdown); `ADCTRIG` has then
cleared `rawValid` (R98's order; DEDUCED, log 15). -/
def Obligations.UnmappedAdcOperationsFault : Prop :=
  ∀ (s : State) (mask : BitVec 4), s.mapped = false → s.phase = .idle →
    (s.cfg.clkDiv.toNat ≤ 65534 → s.cfg.avg.toNat ∈ [1, 2, 4, 8, 16] →
      Raises .adcinit s .access (BitVec.ofNat 32 s.params.offClkctrl)) ∧
    Raises .adcdrain s .access (BitVec.ofNat 32 s.params.offFifocnt) ∧
    Raises .adcharv s .access (BitVec.ofNat 32 s.params.offFifocnt) ∧
    (∃ t, exec (.adctrig mask) s = .next t ∧
      FaultEntered .access (BitVec.ofNat 32 s.params.offStepen) { s with rawValid := .fill false } t)

/-! ## ADC FIFO controller (41_adc_controller.md) -/

/-- `ADCINIT` begins: the divider test, then the averaging test, before any access; then the clock is requested and the
poll begins (41_adc_controller.md R95, 60_exceptions.md R174). -/
def Obligations.AdcinitTestsThenRequestsTheClock : Prop :=
  encode .adcinit = 0x20000000 ∧ ∀ s : State, s.phase = .idle →
    (65534 < s.cfg.clkDiv.toNat → Raises .adcinit s .badCfg 1) ∧
    (s.cfg.clkDiv.toNat ≤ 65534 → s.cfg.avg.toNat ∉ [1, 2, 4, 8, 16] → Raises .adcinit s .badCfg 2) ∧
    (s.cfg.clkDiv.toNat ≤ 65534 → s.cfg.avg.toNat ∈ [1, 2, 4, 8, 16] → s.mapped = true → s.params.WindowLegal →
      Proceeds .adcinit s [.clkReq, .run, .phase] fun t =>
        t.adc.clkReq = true ∧ t.run = .waiting ∧ t.phase = .adcinitPoll 0)

/-- `ADCINIT` polls `clkOn`, one atomic step a poll: it goes on once the bit reads 1, times out at `CLK_WAIT_MAX` polls,
and waits otherwise, for ever when that is ∞ (41_adc_controller.md R95, 70_reset_and_hazards.md R203). -/
def Obligations.AdcinitPollsTheLatch : Prop :=
  ∀ (s : State) (n : Nat), s.phase = .adcinitPoll n → s.run = .waiting → s.mapped = true → s.params.WindowLegal →
    (s.adc.clkOn = true → Proceeds .adcinit s [.run, .phase] fun t =>
      t.run = .running ∧ t.phase = .adcinitWrite .protectOff) ∧
    (∀ m, s.params.clkWaitMax = some m → s.adc.clkOn = false → m ≤ n + 1 →
      Raises .adcinit s .clkTimeout (BitVec.ofNat 32 (n + 1))) ∧
    (∀ m, s.params.clkWaitMax = some m → s.adc.clkOn = false → n + 1 < m →
      Proceeds .adcinit s [.phase] fun t => t.phase = .adcinitPoll (n + 1)) ∧
    (s.params.clkWaitMax = none → s.adc.clkOn = false → ∀ k,
      ∃ t, execTimes k .adcinit s = .next t ∧ t.run = .waiting ∧ t.phase = .adcinitPoll (n + k) ∧
        OnlyChanges [.phase] s t)

/-- `ADCINIT` after the latch: seventeen byte writes, one atomic step each, leave the state of R95: divider, one-shot
mode, averaging code, input and delay of every step, protection on again, converter enabled
(41_adc_controller.md R95, 20_memory.md R46). -/
def Obligations.AdcinitConfiguresTheConverter : Prop :=
  ∀ s : State, s.phase = .adcinitWrite .protectOff → s.mapped = true → s.params.WindowLegal →
    s.cfg.avg.toNat ∈ [1, 2, 4, 8, 16] →
    ∃ t, execTimes 17 .adcinit s = .next t ∧ t.pc = s.pc + 1 ∧ t.phase = .idle ∧
      t.adc.clkDiv = s.cfg.clkDiv.setWidth 16 ∧ t.adc.wpOff = false ∧ t.adc.adcEn = true ∧
      (∀ k, t.adc.stepMode.get k = 0 ∧ 2 ^ (t.adc.stepAvg.get k).toNat = s.cfg.avg.toNat ∧
        t.adc.stepInSel.get k = s.params.inSel.get k ∧ t.adc.stepDelay.get k = s.params.sampleDelay) ∧
      OnlyChanges [.pc, .phase, .clkDiv, .wpOff, .adcEn, .stepMode, .stepAvg, .stepInSel, .stepDelay] s t

/-- Each of `ADCINIT`'s configuration writes answers a next state; the last one, which enables the converter, ends the
operation (41_adc_controller.md R95). -/
def Obligations.AdcinitWritesAnswer : Prop :=
  ∀ (s : State) (w : InitWrite), s.phase = .adcinitWrite w → s.mapped = true → s.params.WindowLegal →
    s.cfg.avg.toNat ∈ [1, 2, 4, 8, 16] →
    (w ≠ .enable → ∃ w', w.after = some w' ∧
      Proceeds .adcinit s [.phase, .clkDiv, .wpOff, .adcEn, .stepMode, .stepAvg, .stepInSel, .stepDelay] fun t =>
        t.phase = .adcinitWrite w') ∧
    (w = .enable → Completes .adcinit s [.phase, .adcEn] fun t => t.phase = .idle ∧ t.adc.adcEn = true)

/-- `ADCDRAIN`, no other agent between its steps, empties the FIFO; words found set `aStale` and are logged with their
number; an empty FIFO ends it at the first read of the count (41_adc_controller.md R96). -/
def Obligations.AdcdrainEmptiesTheFifo : Prop :=
  encode .adcdrain = 0x21000000 ∧
  ∀ s : State, s.mapped = true → s.params.WindowLegal → s.phase = .idle → s.adc.fifo.length ≤ 255 →
    (∃ t, execTimes (2 * s.adc.fifo.length + 1) .adcdrain s = .next t ∧ t.pc = s.pc + 1 ∧ t.phase = .idle ∧
      t.adc.fifo = [] ∧
      (s.adc.fifo ≠ [] → t.anomalies.stale = true ∧ t.log = s.log ++ [.fifoStale s.adc.fifo.length]) ∧
      (s.adc.fifo = [] → t.anomalies.stale = s.anomalies.stale ∧ t.log = s.log) ∧
      OnlyChanges [.pc, .phase, .fifo, .aStale, .log] s t) ∧
    (s.adc.fifo = [] → Completes .adcdrain s [] fun _ => True)

/-- `ADCTRIG mask`: the batch's valid flags cleared, exactly the requested steps enabled and pending; `ADCSTOP`: none;
`ADCSHUT`: the converter disabled; the last two raise E_ACCESS without a mapping (41_adc_controller.md R91, R98, R101,
R102). -/
def Obligations.TriggerStopAndShutdown : Prop :=
  encode .adcstop = 0x25000000 ∧ encode .adcshut = 0x26000000 ∧
  ∀ (s : State) (mask : BitVec 4), encode (.adctrig mask) = 0x22000000 ||| mask.setWidth 32 ∧
    (s.mapped = true → s.params.WindowLegal →
      Completes (.adctrig mask) s [.rawValid, .stepEn, .pend] (fun t =>
        t.adc.stepEn = mask ∧ ∀ k, t.rawValid.get k = false ∧ t.adc.pend.get k = mask.getLsbD k.val) ∧
      Completes .adcstop s [.stepEn, .pend] (fun t => t.adc.stepEn = 0 ∧ ∀ k, t.adc.pend.get k = false) ∧
      Completes .adcshut s [.adcEn] (fun t => t.adc.adcEn = false)) ∧
    (s.mapped = false → Raises .adcstop s .access (BitVec.ofNat 32 s.params.offStepen) ∧
      Raises .adcshut s .access (BitVec.ofNat 32 s.params.offCtrl))

/-- `ADCSETTLE`: a wait from `Now()` that ends no earlier than the settle delay after it, mapped or not, and touches no
register (41_adc_controller.md R99; that `now` then stands past the bound by a free amount is the model's, log 11). -/
def Obligations.AdcsettleWaitsTheSettleDelay : Prop :=
  encode .adcsettle = 0x23000000 ∧ ∀ s : State,
    (s.phase = .idle → Proceeds .adcsettle s [.run, .phase] fun t =>
      t.run = .waiting ∧ t.phase = .settling s.env.now) ∧
    (∀ t0 : Time, s.phase = .settling t0 → t0.toNat + s.params.settleDelay < 2 ^ 64 →
      Completes .adcsettle s [.run, .phase, .now, .freeIx] fun t =>
        t.run = .running ∧ t.phase = .idle ∧ t0.toNat + s.params.settleDelay ≤ t.env.now.toNat ∧
          s.env.now.toNat ≤ t.env.now.toNat)

/-- `ADCHARV`, atomic step by atomic step: the count read decides; a word is taken by its tag alone, a bad tag dropped,
a duplicate replacing the earlier (41_adc_controller.md R100). -/
def Obligations.AdcharvTakesWordsByTag : Prop :=
  encode .adcharv = 0x24000000 ∧
  ∀ s : State, s.mapped = true → s.params.WindowLegal →
    (s.phase = .idle ∨ s.phase = .harvCount → s.adc.fifo = [] →
      Completes .adcharv s [.phase] fun t => t.phase = .idle) ∧
    (s.phase = .idle ∨ s.phase = .harvCount → s.adc.fifo ≠ [] → s.adc.fifo.length ≤ 255 →
      Proceeds .adcharv s [.phase] fun t => t.phase = .harvRead) ∧
    (∀ w rest, s.phase = .harvRead → s.adc.fifo = w :: rest →
      (3 < fifoTag s.params w →
        Proceeds .adcharv s [.fifo, .phase, .aBadTag, .log] fun t =>
          t.adc.fifo = rest ∧ t.phase = .harvCount ∧ t.anomalies.badTag = true ∧ t.log = s.log ++ [.badTag w]) ∧
      (∀ c : Chan, fifoTag s.params w = c.val → s.rawValid.get c = false →
        Proceeds .adcharv s [.fifo, .phase, .raw, .rawValid] fun t =>
          t.adc.fifo = rest ∧ t.phase = .harvCount ∧ t.raw.get c = fifoSample s.params w ∧
            t.rawValid.get c = true ∧ OthersKept c s.raw t.raw ∧ OthersKept c s.rawValid t.rawValid) ∧
      (∀ c : Chan, fifoTag s.params w = c.val → s.rawValid.get c = true →
        Proceeds .adcharv s [.fifo, .phase, .raw, .aDup, .log] fun t =>
          t.adc.fifo = rest ∧ t.phase = .harvCount ∧ t.raw.get c = fifoSample s.params w ∧
            OthersKept c s.raw t.raw ∧ t.anomalies.dup = true ∧ t.log = s.log ++ [.dupTag w]))

/-- The fields of a FIFO word at the spec's own place: TAG = bits 19:16, DATA = bits 11:0 (30_encoding.md R65; P0). -/
def Obligations.FifoWordFieldsAtTheirPlace : Prop :=
  ∀ (p : Params) (w : Word), p.dataLo = 0 → p.tagLo = 16 → p.tagW = 4 →
    fifoTag p w = (w.extractLsb' 16 4).toNat ∧ fifoSample p w = w.extractLsb' 0 12 ∧
    ∀ (k : Chan) (x : Sample), fifoPack p k x = BitVec.ofNat 32 k.val <<< 16 ||| x.setWidth 32

/-- Results are taken by channel, never by read order: a batch of one word for each channel of any list without
repeats, in ANY order, leaves each listed channel its own sample and valid, and every other as it was; the FIFO is
empty and nothing else changes (41_adc_controller.md R100, 70_reset_and_hazards.md R205). -/
def Obligations.HarvestIsIndependentOfOrder : Prop :=
  ∀ (s : State) (order : List Chan) (sample : Chan → Sample), order.Nodup → s.params.WindowLegal →
    s.params.FifoLegal → s.mapped = true → s.phase = .idle → s.rawValid = .fill false →
    s.adc.fifo = order.map (fun c => fifoPack s.params c (sample c)) →
    ∃ t, execTimes (2 * order.length + 1) .adcharv s = .next t ∧ t.pc = s.pc + 1 ∧ t.phase = .idle ∧ t.adc.fifo = [] ∧
      (∀ c, c ∈ order → t.raw.get c = sample c ∧ t.rawValid.get c = true) ∧
      (∀ c, c ∉ order → t.raw.get c = s.raw.get c ∧ t.rawValid.get c = false) ∧
      OnlyChanges [.pc, .phase, .fifo, .raw, .rawValid] s t

/-! ## Median filter (42_median_filter.md) -/

/-- `MEDU.R ch` and `MEDU.I ch, imm12`: the oldest slot overwritten, the pointer advanced modulo N, the median of the
buffer after the write; a missing sample updates nothing (42_median_filter.md R111, R113, R114). -/
def Obligations.MeduEntersTheSample : Prop :=
  ∀ (s : State) (c : Chan) (x : Sample),
    encode (.meduR c) = 0x30000000 ||| BitVec.ofNat 32 c.val <<< 22 ∧
    encode (.meduI c x) = 0x31000000 ||| BitVec.ofNat 32 c.val <<< 22 ||| x.setWidth 32 ∧
    (s.rawValid.get c = false → Completes (.meduR c) s [.aMissing, .log] fun t =>
      t.anomalies.missing = true ∧ t.log = s.log ++ [.missing c]) ∧
    (1 ≤ s.cfg.n.toNat → s.cfg.n.toNat ≤ 65535 →
      let entered (y : Sample) (t : State) : Prop :=
        t.win.get c = (s.win.get c).set (s.wptr.get c).toNat y ∧
        (t.wptr.get c).toNat = ((s.wptr.get c).toNat + 1) % s.cfg.n.toNat ∧
        t.filt.get c = median s.cfg.n.toNat (t.win.get c) ∧
        OthersKept c s.win t.win ∧ OthersKept c s.wptr t.wptr ∧ OthersKept c s.filt t.filt
      (s.rawValid.get c = true → Completes (.meduR c) s [.win, .wptr, .filt] (entered (s.raw.get c))) ∧
      Completes (.meduI c x) s [.win, .wptr, .filt] (entered x))

/-- `Median` is the lower-middle element of the N slot values in ascending order, a function of their multiset only
(42_median_filter.md R112, R115 (a)). -/
def Obligations.MedianIsTheLowerMiddle : Prop :=
  (∀ (n : Nat) (xs : List Sample), xs.length = n → 0 < n →
    ∃ sorted : List Sample, sorted.Perm xs ∧ sorted.Pairwise (fun a b => a.toNat ≤ b.toNat) ∧
      sorted[(n - 1) / 2]? = some (median n xs)) ∧
  (∀ (n : Nat) (xs ys : List Sample), xs.Perm ys → median n xs = median n ys)

/-- A single outlier among N ≥ 3 otherwise equal samples does not change the median, wherever it stands
(42_median_filter.md R115 (d)). -/
def Obligations.MedianIgnoresASingleOutlier : Prop :=
  ∀ (n : Nat) (xs : List Sample) (v : Sample), xs.length = n → 3 ≤ n → xs.countP (fun x => decide (x ≠ v)) ≤ 1 →
    median n xs = v

/-- After N or more consecutive updates of a channel with the same sample, whatever the window held before, its output is
that sample (42_median_filter.md R115 (b)). -/
def Obligations.ConstantSampleFillsTheWindow : Prop :=
  ∀ (s : State) (c : Chan) (v : Sample) (k : Nat), 1 ≤ s.cfg.n.toNat → s.cfg.n.toNat ≤ 65535 →
    (s.win.get c).length = s.cfg.n.toNat → (s.wptr.get c).toNat < s.cfg.n.toNat → s.cfg.n.toNat ≤ k →
    ∃ t, execTimes k (.meduI c v) s = .next t ∧ t.filt.get c = v ∧ OthersKept c s.filt t.filt

/-- From a window of zeros a constant sample reaches the output at update N - floor((N - 1) / 2) and not before
(42_median_filter.md R115 (c)). -/
def Obligations.ConstantSampleReachesOutputOnTime : Prop :=
  ∀ (s : State) (c : Chan) (v : Sample) (k : Nat), 1 ≤ s.cfg.n.toNat → s.cfg.n.toNat ≤ 65535 →
    s.win.get c = List.replicate s.cfg.n.toNat 0 → s.wptr.get c = 0 → 0 < v.toNat → 1 ≤ k → k ≤ s.cfg.n.toNat →
    ∃ t, execTimes k (.meduI c v) s = .next t ∧
      t.filt.get c = if s.cfg.n.toNat - (s.cfg.n.toNat - 1) / 2 ≤ k then v else 0

/-- With `cfgN` outside 1..65535 the window's size is unspecified and an update is refused by name
(45_sequencer.md R152, 93_implementation_defined.md U18). -/
def Obligations.MeduRefusesAnUnspecifiedWindow : Prop :=
  ∀ (s : State) (c : Chan) (x : Sample), (s.cfg.n.toNat = 0 ∨ 65535 < s.cfg.n.toNat) →
    exec (.meduI c x) s = .refused .windowSizeUnspecified ∧
    (s.rawValid.get c = true → exec (.meduR c) s = .refused .windowSizeUnspecified)

/-! ## Mode detector and auto-mode engine (43_auto_mode.md) -/

/-- `MODEDET`: all four below 10 ⇒ off; exactly one below 10 and the three others above 4000 ⇒ on with that channel as
rate channel; any other pattern or an incomplete batch ⇒ nothing (43_auto_mode.md R120, R121). -/
def Obligations.ModedetFollowsTheRawReadings : Prop :=
  encode .modedet = 0x40000000 ∧ ∀ s : State,
    let complete : Prop := ∀ c, s.rawValid.get c = true
    let allBelow : Prop := ∀ c, (s.raw.get c).toNat < 10
    let selects (r : Chan) : Prop := (s.raw.get r).toNat < 10 ∧ ∀ c, c ≠ r → 4000 < (s.raw.get c).toNat
    (complete → allBelow → Completes .modedet s [.autoMode] fun t => t.autoMode = false) ∧
    (∀ r, complete → selects r → Completes .modedet s [.autoMode, .rateChan, .speedValid] fun t =>
      t.autoMode = true ∧ t.rateChan = r ∧
        t.speedValid = if s.autoMode = false ∨ s.rateChan ≠ r then false else s.speedValid) ∧
    (¬ complete ∨ (¬ allBelow ∧ ∀ r, ¬ selects r) → Completes .modedet s [] fun _ => True)

/-- `RATEUPD`: in auto-mode, a new magnitude of the rate channel's speed is taken and every other channel's pending flag
raised; otherwise nothing (43_auto_mode.md R126). -/
def Obligations.RateupdTakesTheSpeed : Prop :=
  encode .rateupd = 0x41000000 ∧ ∀ s : State,
    let m : Nat := speedTable s.params (s.filt.get s.rateChan).toNat
    (s.autoMode = false ∨ (s.speedValid = true ∧ m = s.speedMag.toNat) → Completes .rateupd s [] fun _ => True) ∧
    (s.autoMode = true → (s.speedValid = false ∨ m ≠ s.speedMag.toNat) → s.params.SpeedLegal →
      Completes .rateupd s [.speedMag, .speedValid, .ratePend] fun t =>
        t.speedMag.toNat = m ∧ t.speedValid = true ∧
        (t.auto.get s.rateChan).ratePend = (s.auto.get s.rateChan).ratePend ∧
        ∀ c, c ≠ s.rateChan → (t.auto.get c).ratePend = true)

/-- The speed table gives the magnitude of the least entry whose bound exceeds the intensity, lower intensity ⇒ larger
magnitude, and `LoopMax` is the first entry's, the largest (43_auto_mode.md R124). -/
def Obligations.SpeedTableIsAMonotoneStep : Prop :=
  ∀ p : Params, p.SpeedLegal →
    (∀ x < 4096, ∃ (i bound mag : Nat), p.speedTable[i]? = some (bound, mag) ∧ x < bound ∧
      (∀ (j : Nat) (e : Nat × Nat), j < i → p.speedTable[j]? = some e → e.1 ≤ x) ∧ speedTable p x = mag) ∧
    (∀ x y, x ≤ y → y < 4096 → speedTable p y ≤ speedTable p x) ∧
    (∀ x < 4096, 1 ≤ speedTable p x ∧ speedTable p x ≤ loopMax p) ∧ p.speedTable.head?.map Prod.snd = some (loopMax p)

/-- The draw ranges: `LoFrac` is the fraction rounded up, the ranges are not empty, and every draw of a legal range lies
in it, whatever the random source answers (43_auto_mode.md R125, 10_state.md R35). -/
def Obligations.DrawRangesAreKept : Prop :=
  ∀ p : Params, p.EngineLegal →
    (∀ m, m * p.fracNum ≤ loFrac p m * p.fracDen ∧ loFrac p m * p.fracDen < m * p.fracNum + p.fracDen) ∧
    (∀ m, 1 ≤ m → loLoop p m = max 1 (loFrac p m) ∧ 1 ≤ loLoop p m ∧ loLoop p m ≤ m) ∧
    (loOff p = loFrac p p.offsetLimitMax ∧ 1 ≤ loOff p ∧ loOff p ≤ p.offsetLimitMax) ∧
    (∀ x, intCap p x * p.capDen ≤ x * p.capNum ∧ x * p.capNum < intCap p x * p.capDen + p.capDen) ∧
    (∀ (s : State) (lo hi : Nat), lo ≤ hi → lo ≤ s.drawn lo hi ∧ s.drawn lo hi ≤ hi) ∧
    (∀ (s : State) (lo hi v : Nat) (rest : List Nat), s.env.draws = v :: rest → lo ≤ v → v ≤ hi →
      s.drawn lo hi = v ∧ s.afterDraw = { s with env.draws := rest })

/-- `AUTOSTEP ch` with an inactive engine (auto-mode off, the rate channel, or a channel at or under the off-threshold):
the intensity is the filtered value and the auto state is held (43_auto_mode.md R123, R127). -/
def Obligations.AutostepBypass : Prop :=
  ∀ (s : State) (c : Chan), encode (.autostep c) = 0x42000000 ||| BitVec.ofNat 32 c.val <<< 22 ∧
    (s.autoMode = false ∨ c = s.rateChan ∨ (s.filt.get c).toNat ≤ 10 →
      Completes (.autostep c) s [.inten] fun t =>
        (t.inten.get c).toNat = (s.filt.get c).toNat ∧ OthersKept c s.inten t.inten)

/-- `AUTOSTEP ch` of an active engine, from every state with the auto-mode invariant and for every random source: steps 1
to 3 and the output as the rule computes them, over the integers; the direction reversed exactly at a boundary hit;
without a hit, or with both cooldowns still running, no draw and no randomization; at a hit each limit keeps its value or
takes one of its range, the latter only when its cooldown is over (43_auto_mode.md R125, R127 to R131). -/
def Obligations.AutostepAdvancesAndReflects : Prop :=
  ∀ (s : State) (c : Chan), EngineInv s → s.autoMode = true → c ≠ s.rateChan → 10 < (s.filt.get c).toNat →
    let a := s.auto.get c
    let f : Int := (s.filt.get c).toNat
    let m := speedTable s.params (s.filt.get s.rateChan).toNat
    let cap := intCap s.params (s.filt.get c).toNat
    (¬ s.StepHits c ∨ (¬ s.OffsetCheckDue c ∧ ¬ s.LoopCheckDue c) →
      Completes (.autostep c) s [.loopCounter, .loopLimit, .ratePend, .offset, .offsetDelta, .inten] fun t =>
        AdvancesChannel s c t ∧ (t.auto.get c).loopLimit.toNat = s.stepLimit c ∧
        (t.auto.get c).offset.toInt = s.stepOffset c ∧ ((t.inten.get c).toNat : Int) = max 0 (f + s.stepOffset c)) ∧
    (s.StepHits c →
      Completes (.autostep c) s
        [.loopCounter, .loopLimit, .ratePend, .offset, .offsetDelta, .offsetLimit, .tOffRand, .tLoopRand, .inten, .draws,
          .freeIx] fun t =>
        let b := t.auto.get c
        AdvancesChannel s c t ∧
        b.tOffRand = (if s.OffsetCheckDue c then s.env.now else a.tOffRand) ∧
        b.tLoopRand = (if s.LoopCheckDue c then s.env.now else a.tLoopRand) ∧
        ((b.offsetLimit = a.offsetLimit ∧ b.offset.toInt = s.stepOffset c) ∨
          (s.OffsetCheckDue c ∧ min (loOff s.params) cap ≤ b.offsetLimit.toNat ∧
            b.offsetLimit.toNat ≤ min s.params.offsetLimitMax cap ∧
            b.offset.toInt = min (max (s.stepOffset c) (-(b.offsetLimit.toNat : Int))) b.offsetLimit.toNat)) ∧
        (b.loopLimit.toNat = s.stepLimit c ∨
          (s.LoopCheckDue c ∧ loLoop s.params m ≤ b.loopLimit.toNat ∧ b.loopLimit.toNat ≤ m)) ∧
        ((t.inten.get c).toNat : Int) = max 0 (f + b.offset.toInt))

/-- The offset-size randomization with injected draws: no draw inside the cooldown; one draw (the coin) and the new
timestamp when the coin fails; when it succeeds the next draw, capped by the intensity, is the new limit and the offset
is pulled inside it (43_auto_mode.md R130, R131). -/
def Obligations.RandOffDrawsOncePerCooldown : Prop :=
  ∀ (c : Chan) (t : Time) (s : State) (coin d : Nat) (rest : List Nat), EngineInv s →
    s.env.draws = coin :: d :: rest → coin < s.params.probDen → loOff s.params ≤ d → d ≤ s.params.offsetLimitMax →
    let a := s.auto.get c
    let u := randOff c t s
    (t.toNat < a.tOffRand.toNat + 5000 → u = s) ∧
    (a.tOffRand.toNat + 5000 ≤ t.toNat → s.params.probNum ≤ coin →
      u.env.draws = d :: rest ∧ u.auto.get c = { a with tOffRand := t } ∧
        OnlyChanges [.tOffRand, .draws] s u ∧ OthersKept c s.auto u.auto) ∧
    (a.tOffRand.toNat + 5000 ≤ t.toNat → coin < s.params.probNum →
      u.env.draws = rest ∧ (u.auto.get c).tOffRand = t ∧
        (u.auto.get c).offsetLimit.toNat = min d (intCap s.params (s.filt.get c).toNat) ∧
        (u.auto.get c).offset.toInt =
          min (max a.offset.toInt (-((u.auto.get c).offsetLimit.toNat : Int))) (u.auto.get c).offsetLimit.toNat ∧
        OnlyChanges [.tOffRand, .draws, .offsetLimit, .offset] s u ∧ OthersKept c s.auto u.auto)

/-- The loop-size randomization with injected draws; and the randomizations inside `AUTOSTEP` at a boundary hit, with
injected draws: the offset-size check before the loop-size check, each made when its own cooldown is over, so the draws
are consumed as offset coin, offset value (if the coin succeeded), loop coin, loop value (if it succeeded); what the two
limits, the offset, the timestamps and the output become (43_auto_mode.md R130, R131, R132). -/
def Obligations.RandLoopDrawsOncePerCooldown : Prop :=
  (∀ (c : Chan) (t : Time) (s : State) (coin d : Nat) (rest : List Nat), EngineInv s →
    s.env.draws = coin :: d :: rest → coin < s.params.probDen →
    loLoop s.params (speedTable s.params (s.filt.get s.rateChan).toNat) ≤ d →
    d ≤ speedTable s.params (s.filt.get s.rateChan).toNat →
    let a := s.auto.get c
    let u := randLoop c t s
    (t.toNat < a.tLoopRand.toNat + 5000 → u = s) ∧
    (a.tLoopRand.toNat + 5000 ≤ t.toNat → s.params.probNum ≤ coin →
      u.env.draws = d :: rest ∧ u.auto.get c = { a with tLoopRand := t } ∧
        OnlyChanges [.tLoopRand, .draws] s u ∧ OthersKept c s.auto u.auto) ∧
    (a.tLoopRand.toNat + 5000 ≤ t.toNat → coin < s.params.probNum →
      u.env.draws = rest ∧ (u.auto.get c).tLoopRand = t ∧ (u.auto.get c).loopLimit.toNat = d ∧
        OnlyChanges [.tLoopRand, .draws, .loopLimit] s u ∧ OthersKept c s.auto u.auto)) ∧
  ∀ (s : State) (c : Chan) (oc od lc ld : Nat) (rest : List Nat), EngineInv s →
    s.autoMode = true → c ≠ s.rateChan → 10 < (s.filt.get c).toNat → s.StepHits c →
    oc < s.params.probDen → loOff s.params ≤ od → od ≤ s.params.offsetLimitMax → lc < s.params.probDen →
    loLoop s.params (speedTable s.params (s.filt.get s.rateChan).toNat) ≤ ld →
    ld ≤ speedTable s.params (s.filt.get s.rateChan).toNat →
    s.env.draws =
      (if s.OffsetCheckDue c then if oc < s.params.probNum then [oc, od] else [oc] else []) ++
        (if s.LoopCheckDue c then if lc < s.params.probNum then [lc, ld] else [lc] else []) ++ rest →
    let a := s.auto.get c
    let limit := min od (intCap s.params (s.filt.get c).toNat)
    Completes (.autostep c) s
      [.loopCounter, .loopLimit, .ratePend, .offset, .offsetDelta, .offsetLimit, .tOffRand, .tLoopRand, .inten,
        .draws] fun t =>
      let b := t.auto.get c
      AdvancesChannel s c t ∧ t.env.draws = rest ∧
      b.tOffRand = (if s.OffsetCheckDue c then s.env.now else a.tOffRand) ∧
      b.tLoopRand = (if s.LoopCheckDue c then s.env.now else a.tLoopRand) ∧
      b.offsetLimit.toNat = (if s.OffsetCheckDue c ∧ oc < s.params.probNum then limit else a.offsetLimit.toNat) ∧
      b.offset.toInt =
        (if s.OffsetCheckDue c ∧ oc < s.params.probNum then min (max (s.stepOffset c) (-(limit : Int))) limit
        else s.stepOffset c) ∧
      b.loopLimit.toNat = (if s.LoopCheckDue c ∧ lc < s.params.probNum then ld else s.stepLimit c) ∧
      ((t.inten.get c).toNat : Int) = max 0 ((s.filt.get c).toNat + b.offset.toInt)

/-- `CHINIT`: fixed values, the two limits drawn in their ranges for every random source, and with injected draws the
loop limit before the offset limit, channels 0 to 3 (43_auto_mode.md R134). -/
def Obligations.ChinitCreatesTheAutoState : Prop :=
  encode .chinit = 0x43000000 ∧ ∀ s : State, s.params.Legal →
    Completes .chinit s
      [.loopCounter, .loopLimit, .offset, .offsetDelta, .offsetLimit, .tLoopRand, .tOffRand, .ratePend, .speedValid,
        .draws, .freeIx] (fun t =>
      t.speedValid = false ∧ ∀ c,
        let b := t.auto.get c
        b.loopCounter = 0 ∧ b.offset = 0 ∧ b.offsetDelta.toInt = s.params.fixedStep ∧ b.tLoopRand = s.env.now ∧
        b.tOffRand = s.env.now ∧ b.ratePend = false ∧
        loLoop s.params (loopMax s.params) ≤ b.loopLimit.toNat ∧ b.loopLimit.toNat ≤ loopMax s.params ∧
        loOff s.params ≤ b.offsetLimit.toNat ∧ b.offsetLimit.toNat ≤ s.params.offsetLimitMax) ∧
    (∀ (loops offs : Quad Nat) (rest : List Nat),
      s.env.draws = loops.c0 :: offs.c0 :: loops.c1 :: offs.c1 :: loops.c2 :: offs.c2 :: loops.c3 :: offs.c3 :: rest →
      (∀ c, loLoop s.params (loopMax s.params) ≤ loops.get c ∧ loops.get c ≤ loopMax s.params ∧
        loOff s.params ≤ offs.get c ∧ offs.get c ≤ s.params.offsetLimitMax) →
      ∃ t, exec .chinit s = .next t ∧ t.env.draws = rest ∧
        ∀ c, (t.auto.get c).loopLimit.toNat = loops.get c ∧ (t.auto.get c).offsetLimit.toNat = offs.get c)

/-! ## Duty controller (44_duty_controller.md) -/

/-- The curve: the floor at 0, non-decreasing, between floor and ceiling, below the period, the ceiling for every input
large enough; the table holds it (44_duty_controller.md R141). -/
def Obligations.CurveIsMonotoneAndSaturates : Prop :=
  ∀ p : Params, p.DutyLegal →
    (∀ i : BitVec 16, (dutyLut p i).toNat = curve p i.toNat) ∧
    (∀ i, curve p i = min p.dutyCeil (p.dutyFloor + i * i * p.curveNum / p.curveDen)) ∧
    curve p 0 = p.dutyFloor ∧ (∀ i j, i ≤ j → curve p i ≤ curve p j) ∧
    (∀ i, p.dutyFloor ≤ curve p i ∧ curve p i ≤ p.dutyCeil ∧ curve p i < p.pwmPeriod) ∧
    (∀ i, (p.dutyCeil - p.dutyFloor) * p.curveDen ≤ i * i * p.curveNum → curve p i = p.dutyCeil)

/-- `DCRV.R ch` and `DCRV.I ch, imm16`: the duty of the intensity, of the channel's or of the immediate
(44_duty_controller.md R142, R143). -/
def Obligations.DcrvLooksUpTheDuty : Prop :=
  ∀ (s : State) (c : Chan) (x : BitVec 16),
    encode (.dcrvR c) = 0x50000000 ||| BitVec.ofNat 32 c.val <<< 22 ∧
    encode (.dcrvI c x) = 0x51000000 ||| BitVec.ofNat 32 c.val <<< 22 ||| x.setWidth 32 ∧
    (s.params.DutyLegal →
      Completes (.dcrvR c) s [.duty] (fun t =>
        (t.duty.get c).toNat = curve s.params (s.inten.get c).toNat ∧ OthersKept c s.duty t.duty) ∧
      Completes (.dcrvI c x) s [.duty] (fun t =>
        (t.duty.get c).toNat = curve s.params x.toNat ∧ OthersKept c s.duty t.duty))

/-- `DNORM`: the identity when the sum does not exceed the budget, else every entry scaled by BUDGET / S and rounded
down; the sum then never exceeds the budget and falls short by at most 3, no entry grows, and order is preserved
(44_duty_controller.md R144). -/
def Obligations.DnormKeepsTheBudget : Prop :=
  encode .dnorm = 0x52000000 ∧ ∀ s : State, 0 < s.params.budget →
    let sum (q : Quad (BitVec 32)) : Nat := (q.get 0).toNat + (q.get 1).toNat + (q.get 2).toNat + (q.get 3).toNat
    Completes .dnorm s [.nduty] fun t =>
      (sum s.duty ≤ s.params.budget → t.nduty = s.duty) ∧
      (s.params.budget < sum s.duty →
        (∀ c, (t.nduty.get c).toNat = (s.duty.get c).toNat * s.params.budget / sum s.duty) ∧
        s.params.budget ≤ sum t.nduty + 3) ∧
      sum t.nduty ≤ s.params.budget ∧ (∀ c, (t.nduty.get c).toNat ≤ (s.duty.get c).toNat) ∧
      (∀ a b, (s.duty.get a).toNat ≤ (s.duty.get b).toNat → (t.nduty.get a).toNat ≤ (t.nduty.get b).toNat)

/-- `PWMAPPLY ch`: E_ACCESS without the line; the pair written, counted and remembered when nothing was applied before
or the value differs; otherwise nothing (44_duty_controller.md R145; the count past 64 bits is free, log 19). -/
def Obligations.PwmapplyWritesOnlyChanges : Prop :=
  ∀ (s : State) (c : Chan), encode (.pwmapply c) = 0x53000000 ||| BitVec.ofNat 32 c.val <<< 22 ∧
    (s.pwm.held.get c = false → Raises (.pwmapply c) s .access (BitVec.ofNat 32 (0x10000 + c.val))) ∧
    (s.pwm.held.get c = true → s.appliedValid.get c = false ∨ s.nduty.get c ≠ s.applied.get c →
      s.params.DutyLegal →
      Completes (.pwmapply c) s [.pwmPeriod, .pwmDuty, .pwmWrites, .applied, .appliedValid, .freeIx] fun t =>
        (t.pwm.period.get c).toNat = s.params.pwmPeriod ∧ t.pwm.duty.get c = s.nduty.get c ∧
        (s.pwm.writes.toNat + 1 < 2 ^ 64 →
          t.pwm.writes.toNat = s.pwm.writes.toNat + 1 ∧ t.env.freeIx = s.env.freeIx) ∧
        t.applied.get c = s.nduty.get c ∧ t.appliedValid.get c = true ∧
        OthersKept c s.pwm.period t.pwm.period ∧ OthersKept c s.pwm.duty t.pwm.duty ∧
        OthersKept c s.applied t.applied ∧ OthersKept c s.appliedValid t.appliedValid) ∧
    (s.pwm.held.get c = true → s.appliedValid.get c = true → s.nduty.get c = s.applied.get c →
      Completes (.pwmapply c) s [] fun _ => True)

/-- `PWMACQ`: all four lines in order; at the lowest line that cannot be acquired E_PWMFAIL, the lines below it held;
`PWMREL`: all released (44_duty_controller.md R146, R147). -/
def Obligations.PwmLinesAcquiredAndReleased : Prop :=
  encode .pwmacq = 0x54000000 ∧ encode .pwmrel = 0x55000000 ∧ ∀ s : State,
    ((∀ k, s.env.pwmOk.get k = true) →
      Completes .pwmacq s [.pwmHeld] fun t => ∀ k, t.pwm.held.get k = true) ∧
    (∀ k : Chan, s.env.pwmOk.get k = false → (∀ j, j < k → s.env.pwmOk.get j = true) →
      ∃ (t : State) (held : Quad Bool), exec .pwmacq s = .next t ∧
        FaultEntered .pwmFail (BitVec.ofNat 32 k.val) { s with pwm.held := held } t ∧
        ∀ j, held.get j = if j < k then true else s.pwm.held.get j) ∧
    Completes .pwmrel s [.pwmHeld] fun t => ∀ k, t.pwm.held.get k = false

/-! ## Sequencer (45_sequencer.md) -/

/-- `CFGCHK`: the first failing test of divider, averaging, window size (45_sequencer.md R152). -/
def Obligations.CfgchkFirstFailingTest : Prop :=
  encode .cfgchk = 0x60000000 ∧ ∀ s : State,
    let divOk : Prop := 1 ≤ s.cfg.clkDiv.toNat ∧ s.cfg.clkDiv.toNat ≤ 65534
    let avgOk : Prop := s.cfg.avg.toNat ∈ [1, 2, 4, 8, 16]
    let nOk : Prop := 1 ≤ s.cfg.n.toNat ∧ s.cfg.n.toNat ≤ 65535
    (¬ divOk → Raises .cfgchk s .badCfg 1) ∧ (divOk → ¬ avgOk → Raises .cfgchk s .badCfg 2) ∧
    (divOk → avgOk → ¬ nOk → Raises .cfgchk s .badCfg 3) ∧
    (divOk → avgOk → nOk → Completes .cfgchk s [] fun _ => True)

/-- `JMP tgt` and `BSTOP tgt`: an absolute target; `BSTOP` only when a stop is requested (45_sequencer.md R153, R154). -/
def Obligations.JumpsGoToTheTarget : Prop :=
  ∀ (s : State) (tgt : BitVec 16),
    encode (.jmp tgt) = 0x61000000 ||| tgt.setWidth 32 ∧ encode (.bstop tgt) = 0x62000000 ||| tgt.setWidth 32 ∧
    (∃ t, exec (.jmp tgt) s = .next t ∧ t.pc = tgt.toNat ∧ OnlyChanges [.pc] s t) ∧
    (s.env.stopReq = true → ∃ t, exec (.bstop tgt) s = .next t ∧ t.pc = tgt.toNat ∧ OnlyChanges [.pc] s t) ∧
    (s.env.stopReq = false → Completes (.bstop tgt) s [] fun _ => True)

/-- `SLEEP`: nothing when `cfgSleep` is 0, else a wait that ends no earlier than `cfgSleep` after `Now()`
(45_sequencer.md R155; log 11). -/
def Obligations.SleepWaitsTheInterval : Prop :=
  encode .sleep = 0x63000000 ∧ ∀ s : State,
    (s.phase = .idle → s.cfg.sleep = 0 → Completes .sleep s [] fun _ => True) ∧
    (s.phase = .idle → 0 < s.cfg.sleep.toNat →
      Proceeds .sleep s [.run, .phase] fun t => t.run = .waiting ∧ t.phase = .sleeping s.env.now) ∧
    (∀ t0 : Time, s.phase = .sleeping t0 → t0.toNat + s.cfg.sleep.toNat < 2 ^ 64 →
      Completes .sleep s [.run, .phase, .now, .freeIx] fun t =>
        t.run = .running ∧ t.phase = .idle ∧ t0.toNat + s.cfg.sleep.toNat ≤ t.env.now.toNat ∧
          s.env.now.toNat ≤ t.env.now.toNat)

/-- `HALT`: `run` HALTED, `exitStatus` 0, `pc` and `fault` unchanged; `DBGLINE`: one record when the toggle is set
(45_sequencer.md R156, R157). -/
def Obligations.HaltAndDebugLine : Prop :=
  encode .halt = 0x65000000 ∧ encode .dbgline = 0x64000000 ∧ ∀ s : State,
    Proceeds .halt s [.run, .exitStatus] (fun t => t.run = .halted ∧ t.faultRegs.exitStatus = 0) ∧
    (s.cfg.debug = false → Completes .dbgline s [] fun _ => True) ∧
    (s.cfg.debug = true → Completes .dbgline s [.debug] fun t => ∃ r : DebugRecord, t.debug = s.debug ++ [r] ∧
      r.autoMode = s.autoMode ∧ r.rateChan = s.rateChan ∧
      ∀ c, r.channels.get c = ⟨s.raw.get c, s.filt.get c, (s.auto.get c).loopCounter, (s.auto.get c).loopLimit,
        (s.auto.get c).offset, (s.auto.get c).offsetDelta, (s.auto.get c).offsetLimit, s.inten.get c, s.nduty.get c⟩)
end

