-- ==== Sys2Proof/Laws/State.lean ====
section
/-! SUPPORT. The small lemmas of the state: reads and writes of the four-element record, and one lemma per field for
each named update, true by rfl, so that no later proof unfolds a record update. -/

namespace Sys2Proof

/-! ## The four-element record -/

@[simp] theorem Quad.get_set_same {α : Type} (q : Quad α) (c : Chan) (v : α) : (q.set c v).get c = v := by
  match c with
  | 0 => rfl
  | 1 => rfl
  | 2 => rfl
  | 3 => rfl

theorem Quad.get_set_other {α : Type} (q : Quad α) {c d : Chan} (v : α) (h : d ≠ c) : (q.set c v).get d = q.get d := by
  match c, d with
  | 0, 1 => rfl
  | 0, 2 => rfl
  | 0, 3 => rfl
  | 1, 0 => rfl
  | 1, 2 => rfl
  | 1, 3 => rfl
  | 2, 0 => rfl
  | 2, 1 => rfl
  | 2, 3 => rfl
  | 3, 0 => rfl
  | 3, 1 => rfl
  | 3, 2 => rfl
  | 0, 0 => exact absurd rfl h
  | 1, 1 => exact absurd rfl h
  | 2, 2 => exact absurd rfl h
  | 3, 3 => exact absurd rfl h

theorem Quad.get_set {α : Type} (q : Quad α) (c d : Chan) (v : α) :
    (q.set c v).get d = if d = c then v else q.get d := by
  by_cases h : d = c
  · subst h; simp
  · simp [h, Quad.get_set_other]

@[simp] theorem Quad.get_fill {α : Type} (v : α) (c : Chan) : (Quad.fill v).get c = v := by
  match c with
  | 0 => rfl
  | 1 => rfl
  | 2 => rfl
  | 3 => rfl

@[simp] theorem Quad.get_ofFn {α : Type} (f : Chan → α) (c : Chan) : (Quad.ofFn f).get c = f c := by
  match c with
  | 0 => rfl
  | 1 => rfl
  | 2 => rfl
  | 3 => rfl

@[simp] theorem Quad.get_map {α β : Type} (f : α → β) (q : Quad α) (c : Chan) : (q.map f).get c = f (q.get c) := by
  match c with
  | 0 => rfl
  | 1 => rfl
  | 2 => rfl
  | 3 => rfl

/-- Two records with the same elements are the same. -/
theorem Quad.ext_get {α : Type} {q r : Quad α} (h : ∀ c, q.get c = r.get c) : q = r := by
  have h0 := h 0
  have h1 := h 1
  have h2 := h 2
  have h3 := h 3
  cases q; cases r
  simp_all [Quad.get]

/-- A claim about every channel is a claim about the four. -/
theorem Chan.forall_iff {P : Chan → Prop} : (∀ c, P c) ↔ P 0 ∧ P 1 ∧ P 2 ∧ P 3 :=
  ⟨fun h => ⟨h 0, h 1, h 2, h 3⟩, fun ⟨h0, h1, h2, h3⟩ c =>
    match c with
    | 0 => h0
    | 1 => h1
    | 2 => h2
    | 3 => h3⟩

namespace Machine

/-! ## Named updates, field by field -/

/-! ### `State.advance` -/

@[simp] theorem State.advance_params (s : State) : s.advance.params = s.params := rfl
@[simp] theorem State.advance_cfg (s : State) : s.advance.cfg = s.cfg := rfl
@[simp] theorem State.advance_prog (s : State) : s.advance.prog = s.prog := rfl
@[simp] theorem State.advance_pc (s : State) : s.advance.pc = s.pc + 1 := rfl
@[simp] theorem State.advance_run (s : State) : s.advance.run = s.run := rfl
@[simp] theorem State.advance_phase (s : State) : s.advance.phase = s.phase := rfl
@[simp] theorem State.advance_raw (s : State) : s.advance.raw = s.raw := rfl
@[simp] theorem State.advance_rawValid (s : State) : s.advance.rawValid = s.rawValid := rfl
@[simp] theorem State.advance_filt (s : State) : s.advance.filt = s.filt := rfl
@[simp] theorem State.advance_inten (s : State) : s.advance.inten = s.inten := rfl
@[simp] theorem State.advance_duty (s : State) : s.advance.duty = s.duty := rfl
@[simp] theorem State.advance_nduty (s : State) : s.advance.nduty = s.nduty := rfl
@[simp] theorem State.advance_applied (s : State) : s.advance.applied = s.applied := rfl
@[simp] theorem State.advance_appliedValid (s : State) : s.advance.appliedValid = s.appliedValid := rfl
@[simp] theorem State.advance_rdata (s : State) : s.advance.rdata = s.rdata := rfl
@[simp] theorem State.advance_fdata (s : State) : s.advance.fdata = s.fdata := rfl
@[simp] theorem State.advance_autoMode (s : State) : s.advance.autoMode = s.autoMode := rfl
@[simp] theorem State.advance_rateChan (s : State) : s.advance.rateChan = s.rateChan := rfl
@[simp] theorem State.advance_anomalies (s : State) : s.advance.anomalies = s.anomalies := rfl
@[simp] theorem State.advance_faultRegs (s : State) : s.advance.faultRegs = s.faultRegs := rfl
@[simp] theorem State.advance_adc (s : State) : s.advance.adc = s.adc := rfl
@[simp] theorem State.advance_auto (s : State) : s.advance.auto = s.auto := rfl
@[simp] theorem State.advance_speedMag (s : State) : s.advance.speedMag = s.speedMag := rfl
@[simp] theorem State.advance_speedValid (s : State) : s.advance.speedValid = s.speedValid := rfl
@[simp] theorem State.advance_win (s : State) : s.advance.win = s.win := rfl
@[simp] theorem State.advance_wptr (s : State) : s.advance.wptr = s.wptr := rfl
@[simp] theorem State.advance_mapped (s : State) : s.advance.mapped = s.mapped := rfl
@[simp] theorem State.advance_closed (s : State) : s.advance.closed = s.closed := rfl
@[simp] theorem State.advance_pwm (s : State) : s.advance.pwm = s.pwm := rfl
@[simp] theorem State.advance_env (s : State) : s.advance.env = s.env := rfl
@[simp] theorem State.advance_log (s : State) : s.advance.log = s.log := rfl
@[simp] theorem State.advance_debug (s : State) : s.advance.debug = s.debug := rfl

/-! ### `State.complete` -/

@[simp] theorem State.complete_params (s : State) : s.complete.params = s.params := rfl
@[simp] theorem State.complete_cfg (s : State) : s.complete.cfg = s.cfg := rfl
@[simp] theorem State.complete_prog (s : State) : s.complete.prog = s.prog := rfl
@[simp] theorem State.complete_pc (s : State) : s.complete.pc = s.pc + 1 := rfl
@[simp] theorem State.complete_run (s : State) : s.complete.run = s.run := rfl
@[simp] theorem State.complete_phase (s : State) : s.complete.phase = .idle := rfl
@[simp] theorem State.complete_raw (s : State) : s.complete.raw = s.raw := rfl
@[simp] theorem State.complete_rawValid (s : State) : s.complete.rawValid = s.rawValid := rfl
@[simp] theorem State.complete_filt (s : State) : s.complete.filt = s.filt := rfl
@[simp] theorem State.complete_inten (s : State) : s.complete.inten = s.inten := rfl
@[simp] theorem State.complete_duty (s : State) : s.complete.duty = s.duty := rfl
@[simp] theorem State.complete_nduty (s : State) : s.complete.nduty = s.nduty := rfl
@[simp] theorem State.complete_applied (s : State) : s.complete.applied = s.applied := rfl
@[simp] theorem State.complete_appliedValid (s : State) : s.complete.appliedValid = s.appliedValid := rfl
@[simp] theorem State.complete_rdata (s : State) : s.complete.rdata = s.rdata := rfl
@[simp] theorem State.complete_fdata (s : State) : s.complete.fdata = s.fdata := rfl
@[simp] theorem State.complete_autoMode (s : State) : s.complete.autoMode = s.autoMode := rfl
@[simp] theorem State.complete_rateChan (s : State) : s.complete.rateChan = s.rateChan := rfl
@[simp] theorem State.complete_anomalies (s : State) : s.complete.anomalies = s.anomalies := rfl
@[simp] theorem State.complete_faultRegs (s : State) : s.complete.faultRegs = s.faultRegs := rfl
@[simp] theorem State.complete_adc (s : State) : s.complete.adc = s.adc := rfl
@[simp] theorem State.complete_auto (s : State) : s.complete.auto = s.auto := rfl
@[simp] theorem State.complete_speedMag (s : State) : s.complete.speedMag = s.speedMag := rfl
@[simp] theorem State.complete_speedValid (s : State) : s.complete.speedValid = s.speedValid := rfl
@[simp] theorem State.complete_win (s : State) : s.complete.win = s.win := rfl
@[simp] theorem State.complete_wptr (s : State) : s.complete.wptr = s.wptr := rfl
@[simp] theorem State.complete_mapped (s : State) : s.complete.mapped = s.mapped := rfl
@[simp] theorem State.complete_closed (s : State) : s.complete.closed = s.closed := rfl
@[simp] theorem State.complete_pwm (s : State) : s.complete.pwm = s.pwm := rfl
@[simp] theorem State.complete_env (s : State) : s.complete.env = s.env := rfl
@[simp] theorem State.complete_log (s : State) : s.complete.log = s.log := rfl
@[simp] theorem State.complete_debug (s : State) : s.complete.debug = s.debug := rfl

/-! ### `State.nextFree` -/

@[simp] theorem State.nextFree_params (s : State) : s.nextFree.params = s.params := rfl
@[simp] theorem State.nextFree_cfg (s : State) : s.nextFree.cfg = s.cfg := rfl
@[simp] theorem State.nextFree_prog (s : State) : s.nextFree.prog = s.prog := rfl
@[simp] theorem State.nextFree_pc (s : State) : s.nextFree.pc = s.pc := rfl
@[simp] theorem State.nextFree_run (s : State) : s.nextFree.run = s.run := rfl
@[simp] theorem State.nextFree_phase (s : State) : s.nextFree.phase = s.phase := rfl
@[simp] theorem State.nextFree_raw (s : State) : s.nextFree.raw = s.raw := rfl
@[simp] theorem State.nextFree_rawValid (s : State) : s.nextFree.rawValid = s.rawValid := rfl
@[simp] theorem State.nextFree_filt (s : State) : s.nextFree.filt = s.filt := rfl
@[simp] theorem State.nextFree_inten (s : State) : s.nextFree.inten = s.inten := rfl
@[simp] theorem State.nextFree_duty (s : State) : s.nextFree.duty = s.duty := rfl
@[simp] theorem State.nextFree_nduty (s : State) : s.nextFree.nduty = s.nduty := rfl
@[simp] theorem State.nextFree_applied (s : State) : s.nextFree.applied = s.applied := rfl
@[simp] theorem State.nextFree_appliedValid (s : State) : s.nextFree.appliedValid = s.appliedValid := rfl
@[simp] theorem State.nextFree_rdata (s : State) : s.nextFree.rdata = s.rdata := rfl
@[simp] theorem State.nextFree_fdata (s : State) : s.nextFree.fdata = s.fdata := rfl
@[simp] theorem State.nextFree_autoMode (s : State) : s.nextFree.autoMode = s.autoMode := rfl
@[simp] theorem State.nextFree_rateChan (s : State) : s.nextFree.rateChan = s.rateChan := rfl
@[simp] theorem State.nextFree_anomalies (s : State) : s.nextFree.anomalies = s.anomalies := rfl
@[simp] theorem State.nextFree_faultRegs (s : State) : s.nextFree.faultRegs = s.faultRegs := rfl
@[simp] theorem State.nextFree_adc (s : State) : s.nextFree.adc = s.adc := rfl
@[simp] theorem State.nextFree_auto (s : State) : s.nextFree.auto = s.auto := rfl
@[simp] theorem State.nextFree_speedMag (s : State) : s.nextFree.speedMag = s.speedMag := rfl
@[simp] theorem State.nextFree_speedValid (s : State) : s.nextFree.speedValid = s.speedValid := rfl
@[simp] theorem State.nextFree_win (s : State) : s.nextFree.win = s.win := rfl
@[simp] theorem State.nextFree_wptr (s : State) : s.nextFree.wptr = s.wptr := rfl
@[simp] theorem State.nextFree_mapped (s : State) : s.nextFree.mapped = s.mapped := rfl
@[simp] theorem State.nextFree_closed (s : State) : s.nextFree.closed = s.closed := rfl
@[simp] theorem State.nextFree_pwm (s : State) : s.nextFree.pwm = s.pwm := rfl
@[simp] theorem State.nextFree_env (s : State) : s.nextFree.env = { s.env with freeIx := s.env.freeIx + 1 } := rfl
@[simp] theorem State.nextFree_log (s : State) : s.nextFree.log = s.log := rfl
@[simp] theorem State.nextFree_debug (s : State) : s.nextFree.debug = s.debug := rfl

/-! ### `State.tick` -/

@[simp] theorem State.tick_params (s : State) (d : Nat) : (s.tick d).params = s.params := rfl
@[simp] theorem State.tick_cfg (s : State) (d : Nat) : (s.tick d).cfg = s.cfg := rfl
@[simp] theorem State.tick_prog (s : State) (d : Nat) : (s.tick d).prog = s.prog := rfl
@[simp] theorem State.tick_pc (s : State) (d : Nat) : (s.tick d).pc = s.pc := rfl
@[simp] theorem State.tick_run (s : State) (d : Nat) : (s.tick d).run = s.run := rfl
@[simp] theorem State.tick_phase (s : State) (d : Nat) : (s.tick d).phase = s.phase := rfl
@[simp] theorem State.tick_raw (s : State) (d : Nat) : (s.tick d).raw = s.raw := rfl
@[simp] theorem State.tick_rawValid (s : State) (d : Nat) : (s.tick d).rawValid = s.rawValid := rfl
@[simp] theorem State.tick_filt (s : State) (d : Nat) : (s.tick d).filt = s.filt := rfl
@[simp] theorem State.tick_inten (s : State) (d : Nat) : (s.tick d).inten = s.inten := rfl
@[simp] theorem State.tick_duty (s : State) (d : Nat) : (s.tick d).duty = s.duty := rfl
@[simp] theorem State.tick_nduty (s : State) (d : Nat) : (s.tick d).nduty = s.nduty := rfl
@[simp] theorem State.tick_applied (s : State) (d : Nat) : (s.tick d).applied = s.applied := rfl
@[simp] theorem State.tick_appliedValid (s : State) (d : Nat) : (s.tick d).appliedValid = s.appliedValid := rfl
@[simp] theorem State.tick_rdata (s : State) (d : Nat) : (s.tick d).rdata = s.rdata := rfl
@[simp] theorem State.tick_fdata (s : State) (d : Nat) : (s.tick d).fdata = s.fdata := rfl
@[simp] theorem State.tick_autoMode (s : State) (d : Nat) : (s.tick d).autoMode = s.autoMode := rfl
@[simp] theorem State.tick_rateChan (s : State) (d : Nat) : (s.tick d).rateChan = s.rateChan := rfl
@[simp] theorem State.tick_anomalies (s : State) (d : Nat) : (s.tick d).anomalies = s.anomalies := rfl
@[simp] theorem State.tick_faultRegs (s : State) (d : Nat) : (s.tick d).faultRegs = s.faultRegs := rfl
@[simp] theorem State.tick_adc (s : State) (d : Nat) : (s.tick d).adc = s.adc := rfl
@[simp] theorem State.tick_auto (s : State) (d : Nat) : (s.tick d).auto = s.auto := rfl
@[simp] theorem State.tick_speedMag (s : State) (d : Nat) : (s.tick d).speedMag = s.speedMag := rfl
@[simp] theorem State.tick_speedValid (s : State) (d : Nat) : (s.tick d).speedValid = s.speedValid := rfl
@[simp] theorem State.tick_win (s : State) (d : Nat) : (s.tick d).win = s.win := rfl
@[simp] theorem State.tick_wptr (s : State) (d : Nat) : (s.tick d).wptr = s.wptr := rfl
@[simp] theorem State.tick_mapped (s : State) (d : Nat) : (s.tick d).mapped = s.mapped := rfl
@[simp] theorem State.tick_closed (s : State) (d : Nat) : (s.tick d).closed = s.closed := rfl
@[simp] theorem State.tick_pwm (s : State) (d : Nat) : (s.tick d).pwm = s.pwm := rfl
@[simp] theorem State.tick_env (s : State) (d : Nat) :
    (s.tick d).env = { s.env with now := timeOf (s.env.now.toNat + d) } := rfl
@[simp] theorem State.tick_log (s : State) (d : Nat) : (s.tick d).log = s.log := rfl
@[simp] theorem State.tick_debug (s : State) (d : Nat) : (s.tick d).debug = s.debug := rfl

/-! ### `State.raise` -/

@[simp] theorem State.raise_params (s : State) (f : BlockFault) (info : Word) :
    (s.raise f info).params = s.params := rfl
@[simp] theorem State.raise_cfg (s : State) (f : BlockFault) (info : Word) : (s.raise f info).cfg = s.cfg := rfl
@[simp] theorem State.raise_prog (s : State) (f : BlockFault) (info : Word) : (s.raise f info).prog = s.prog := rfl
@[simp] theorem State.raise_pc (s : State) (f : BlockFault) (info : Word) : (s.raise f info).pc = s.pc := rfl
@[simp] theorem State.raise_run (s : State) (f : BlockFault) (info : Word) : (s.raise f info).run = .halted := rfl
@[simp] theorem State.raise_phase (s : State) (f : BlockFault) (info : Word) : (s.raise f info).phase = .idle := rfl
@[simp] theorem State.raise_raw (s : State) (f : BlockFault) (info : Word) : (s.raise f info).raw = s.raw := rfl
@[simp] theorem State.raise_rawValid (s : State) (f : BlockFault) (info : Word) :
    (s.raise f info).rawValid = s.rawValid := rfl
@[simp] theorem State.raise_filt (s : State) (f : BlockFault) (info : Word) : (s.raise f info).filt = s.filt := rfl
@[simp] theorem State.raise_inten (s : State) (f : BlockFault) (info : Word) : (s.raise f info).inten = s.inten := rfl
@[simp] theorem State.raise_duty (s : State) (f : BlockFault) (info : Word) : (s.raise f info).duty = s.duty := rfl
@[simp] theorem State.raise_nduty (s : State) (f : BlockFault) (info : Word) : (s.raise f info).nduty = s.nduty := rfl
@[simp] theorem State.raise_applied (s : State) (f : BlockFault) (info : Word) :
    (s.raise f info).applied = s.applied := rfl
@[simp] theorem State.raise_appliedValid (s : State) (f : BlockFault) (info : Word) :
    (s.raise f info).appliedValid = s.appliedValid := rfl
@[simp] theorem State.raise_rdata (s : State) (f : BlockFault) (info : Word) : (s.raise f info).rdata = s.rdata := rfl
@[simp] theorem State.raise_fdata (s : State) (f : BlockFault) (info : Word) : (s.raise f info).fdata = s.fdata := rfl
@[simp] theorem State.raise_autoMode (s : State) (f : BlockFault) (info : Word) :
    (s.raise f info).autoMode = s.autoMode := rfl
@[simp] theorem State.raise_rateChan (s : State) (f : BlockFault) (info : Word) :
    (s.raise f info).rateChan = s.rateChan := rfl
@[simp] theorem State.raise_anomalies (s : State) (f : BlockFault) (info : Word) :
    (s.raise f info).anomalies = s.anomalies := rfl
@[simp] theorem State.raise_faultRegs (s : State) (f : BlockFault) (info : Word) :
    (s.raise f info).faultRegs = ⟨f.code, s.pcReg, info, f.code⟩ := rfl
@[simp] theorem State.raise_adc (s : State) (f : BlockFault) (info : Word) : (s.raise f info).adc = s.adc := rfl
@[simp] theorem State.raise_auto (s : State) (f : BlockFault) (info : Word) : (s.raise f info).auto = s.auto := rfl
@[simp] theorem State.raise_speedMag (s : State) (f : BlockFault) (info : Word) :
    (s.raise f info).speedMag = s.speedMag := rfl
@[simp] theorem State.raise_speedValid (s : State) (f : BlockFault) (info : Word) :
    (s.raise f info).speedValid = s.speedValid := rfl
@[simp] theorem State.raise_win (s : State) (f : BlockFault) (info : Word) : (s.raise f info).win = s.win := rfl
@[simp] theorem State.raise_wptr (s : State) (f : BlockFault) (info : Word) : (s.raise f info).wptr = s.wptr := rfl
@[simp] theorem State.raise_mapped (s : State) (f : BlockFault) (info : Word) :
    (s.raise f info).mapped = s.mapped := rfl
@[simp] theorem State.raise_closed (s : State) (f : BlockFault) (info : Word) :
    (s.raise f info).closed = s.closed := rfl
@[simp] theorem State.raise_pwm (s : State) (f : BlockFault) (info : Word) : (s.raise f info).pwm = s.pwm := rfl
@[simp] theorem State.raise_env (s : State) (f : BlockFault) (info : Word) :
    (s.raise f info).env = { s.env with freeIx := if s.pc < 65536 then s.env.freeIx else s.env.freeIx + 1 } := rfl
@[simp] theorem State.raise_log (s : State) (f : BlockFault) (info : Word) :
    (s.raise f info).log = s.log ++ [.fatal f.code info] := rfl
@[simp] theorem State.raise_debug (s : State) (f : BlockFault) (info : Word) : (s.raise f info).debug = s.debug := rfl

/-! ### `State.pushSample` -/

@[simp] theorem State.pushSample_params (s : State) (c : Chan) (x : Sample) :
    (s.pushSample c x).params = s.params := rfl
@[simp] theorem State.pushSample_cfg (s : State) (c : Chan) (x : Sample) : (s.pushSample c x).cfg = s.cfg := rfl
@[simp] theorem State.pushSample_prog (s : State) (c : Chan) (x : Sample) : (s.pushSample c x).prog = s.prog := rfl
@[simp] theorem State.pushSample_pc (s : State) (c : Chan) (x : Sample) : (s.pushSample c x).pc = s.pc := rfl
@[simp] theorem State.pushSample_run (s : State) (c : Chan) (x : Sample) : (s.pushSample c x).run = s.run := rfl
@[simp] theorem State.pushSample_phase (s : State) (c : Chan) (x : Sample) : (s.pushSample c x).phase = s.phase := rfl
@[simp] theorem State.pushSample_raw (s : State) (c : Chan) (x : Sample) : (s.pushSample c x).raw = s.raw := rfl
@[simp] theorem State.pushSample_rawValid (s : State) (c : Chan) (x : Sample) :
    (s.pushSample c x).rawValid = s.rawValid := rfl
@[simp] theorem State.pushSample_filt (s : State) (c : Chan) (x : Sample) : (s.pushSample c x).filt = s.filt := rfl
@[simp] theorem State.pushSample_inten (s : State) (c : Chan) (x : Sample) : (s.pushSample c x).inten = s.inten := rfl
@[simp] theorem State.pushSample_duty (s : State) (c : Chan) (x : Sample) : (s.pushSample c x).duty = s.duty := rfl
@[simp] theorem State.pushSample_nduty (s : State) (c : Chan) (x : Sample) : (s.pushSample c x).nduty = s.nduty := rfl
@[simp] theorem State.pushSample_applied (s : State) (c : Chan) (x : Sample) :
    (s.pushSample c x).applied = s.applied := rfl
@[simp] theorem State.pushSample_appliedValid (s : State) (c : Chan) (x : Sample) :
    (s.pushSample c x).appliedValid = s.appliedValid := rfl
@[simp] theorem State.pushSample_rdata (s : State) (c : Chan) (x : Sample) : (s.pushSample c x).rdata = s.rdata := rfl
@[simp] theorem State.pushSample_fdata (s : State) (c : Chan) (x : Sample) : (s.pushSample c x).fdata = s.fdata := rfl
@[simp] theorem State.pushSample_autoMode (s : State) (c : Chan) (x : Sample) :
    (s.pushSample c x).autoMode = s.autoMode := rfl
@[simp] theorem State.pushSample_rateChan (s : State) (c : Chan) (x : Sample) :
    (s.pushSample c x).rateChan = s.rateChan := rfl
@[simp] theorem State.pushSample_anomalies (s : State) (c : Chan) (x : Sample) :
    (s.pushSample c x).anomalies = s.anomalies := rfl
@[simp] theorem State.pushSample_faultRegs (s : State) (c : Chan) (x : Sample) :
    (s.pushSample c x).faultRegs = s.faultRegs := rfl
@[simp] theorem State.pushSample_adc (s : State) (c : Chan) (x : Sample) : (s.pushSample c x).adc = s.adc := rfl
@[simp] theorem State.pushSample_auto (s : State) (c : Chan) (x : Sample) : (s.pushSample c x).auto = s.auto := rfl
@[simp] theorem State.pushSample_speedMag (s : State) (c : Chan) (x : Sample) :
    (s.pushSample c x).speedMag = s.speedMag := rfl
@[simp] theorem State.pushSample_speedValid (s : State) (c : Chan) (x : Sample) :
    (s.pushSample c x).speedValid = s.speedValid := rfl
@[simp] theorem State.pushSample_win (s : State) (c : Chan) (x : Sample) :
    (s.pushSample c x).win = s.win.set c ((s.win.get c).set (s.wptr.get c).toNat x) := rfl
@[simp] theorem State.pushSample_wptr (s : State) (c : Chan) (x : Sample) :
    (s.pushSample c x).wptr = s.wptr.set c (BitVec.ofNat 16 (((s.wptr.get c).toNat + 1) % s.cfg.n.toNat)) := rfl
@[simp] theorem State.pushSample_mapped (s : State) (c : Chan) (x : Sample) :
    (s.pushSample c x).mapped = s.mapped := rfl
@[simp] theorem State.pushSample_closed (s : State) (c : Chan) (x : Sample) :
    (s.pushSample c x).closed = s.closed := rfl
@[simp] theorem State.pushSample_pwm (s : State) (c : Chan) (x : Sample) : (s.pushSample c x).pwm = s.pwm := rfl
@[simp] theorem State.pushSample_env (s : State) (c : Chan) (x : Sample) : (s.pushSample c x).env = s.env := rfl
@[simp] theorem State.pushSample_log (s : State) (c : Chan) (x : Sample) : (s.pushSample c x).log = s.log := rfl
@[simp] theorem State.pushSample_debug (s : State) (c : Chan) (x : Sample) : (s.pushSample c x).debug = s.debug := rfl

/-! ### `State.pwmWrite` -/

@[simp] theorem State.pwmWrite_params (s : State) (c : Chan) (v : BitVec 32) :
    (s.pwmWrite c v).params = s.params := rfl
@[simp] theorem State.pwmWrite_cfg (s : State) (c : Chan) (v : BitVec 32) : (s.pwmWrite c v).cfg = s.cfg := rfl
@[simp] theorem State.pwmWrite_prog (s : State) (c : Chan) (v : BitVec 32) : (s.pwmWrite c v).prog = s.prog := rfl
@[simp] theorem State.pwmWrite_pc (s : State) (c : Chan) (v : BitVec 32) : (s.pwmWrite c v).pc = s.pc := rfl
@[simp] theorem State.pwmWrite_run (s : State) (c : Chan) (v : BitVec 32) : (s.pwmWrite c v).run = s.run := rfl
@[simp] theorem State.pwmWrite_phase (s : State) (c : Chan) (v : BitVec 32) : (s.pwmWrite c v).phase = s.phase := rfl
@[simp] theorem State.pwmWrite_raw (s : State) (c : Chan) (v : BitVec 32) : (s.pwmWrite c v).raw = s.raw := rfl
@[simp] theorem State.pwmWrite_rawValid (s : State) (c : Chan) (v : BitVec 32) :
    (s.pwmWrite c v).rawValid = s.rawValid := rfl
@[simp] theorem State.pwmWrite_filt (s : State) (c : Chan) (v : BitVec 32) : (s.pwmWrite c v).filt = s.filt := rfl
@[simp] theorem State.pwmWrite_inten (s : State) (c : Chan) (v : BitVec 32) : (s.pwmWrite c v).inten = s.inten := rfl
@[simp] theorem State.pwmWrite_duty (s : State) (c : Chan) (v : BitVec 32) : (s.pwmWrite c v).duty = s.duty := rfl
@[simp] theorem State.pwmWrite_nduty (s : State) (c : Chan) (v : BitVec 32) : (s.pwmWrite c v).nduty = s.nduty := rfl
@[simp] theorem State.pwmWrite_applied (s : State) (c : Chan) (v : BitVec 32) :
    (s.pwmWrite c v).applied = s.applied := rfl
@[simp] theorem State.pwmWrite_appliedValid (s : State) (c : Chan) (v : BitVec 32) :
    (s.pwmWrite c v).appliedValid = s.appliedValid := rfl
@[simp] theorem State.pwmWrite_rdata (s : State) (c : Chan) (v : BitVec 32) : (s.pwmWrite c v).rdata = s.rdata := rfl
@[simp] theorem State.pwmWrite_fdata (s : State) (c : Chan) (v : BitVec 32) : (s.pwmWrite c v).fdata = s.fdata := rfl
@[simp] theorem State.pwmWrite_autoMode (s : State) (c : Chan) (v : BitVec 32) :
    (s.pwmWrite c v).autoMode = s.autoMode := rfl
@[simp] theorem State.pwmWrite_rateChan (s : State) (c : Chan) (v : BitVec 32) :
    (s.pwmWrite c v).rateChan = s.rateChan := rfl
@[simp] theorem State.pwmWrite_anomalies (s : State) (c : Chan) (v : BitVec 32) :
    (s.pwmWrite c v).anomalies = s.anomalies := rfl
@[simp] theorem State.pwmWrite_faultRegs (s : State) (c : Chan) (v : BitVec 32) :
    (s.pwmWrite c v).faultRegs = s.faultRegs := rfl
@[simp] theorem State.pwmWrite_adc (s : State) (c : Chan) (v : BitVec 32) : (s.pwmWrite c v).adc = s.adc := rfl
@[simp] theorem State.pwmWrite_auto (s : State) (c : Chan) (v : BitVec 32) : (s.pwmWrite c v).auto = s.auto := rfl
@[simp] theorem State.pwmWrite_speedMag (s : State) (c : Chan) (v : BitVec 32) :
    (s.pwmWrite c v).speedMag = s.speedMag := rfl
@[simp] theorem State.pwmWrite_speedValid (s : State) (c : Chan) (v : BitVec 32) :
    (s.pwmWrite c v).speedValid = s.speedValid := rfl
@[simp] theorem State.pwmWrite_win (s : State) (c : Chan) (v : BitVec 32) : (s.pwmWrite c v).win = s.win := rfl
@[simp] theorem State.pwmWrite_wptr (s : State) (c : Chan) (v : BitVec 32) : (s.pwmWrite c v).wptr = s.wptr := rfl
@[simp] theorem State.pwmWrite_mapped (s : State) (c : Chan) (v : BitVec 32) :
    (s.pwmWrite c v).mapped = s.mapped := rfl
@[simp] theorem State.pwmWrite_closed (s : State) (c : Chan) (v : BitVec 32) :
    (s.pwmWrite c v).closed = s.closed := rfl
@[simp] theorem State.pwmWrite_pwm (s : State) (c : Chan) (v : BitVec 32) :
    (s.pwmWrite c v).pwm = ⟨s.pwm.held, s.pwm.period.set c (BitVec.ofNat 32 s.params.pwmPeriod), s.pwm.duty.set c v, s.nextPwmWrites⟩ := rfl
@[simp] theorem State.pwmWrite_env (s : State) (c : Chan) (v : BitVec 32) :
    (s.pwmWrite c v).env = { s.env with freeIx := if s.pwm.writes.toNat + 1 < 2 ^ 64 then s.env.freeIx else s.env.freeIx + 1 } := rfl
@[simp] theorem State.pwmWrite_log (s : State) (c : Chan) (v : BitVec 32) : (s.pwmWrite c v).log = s.log := rfl
@[simp] theorem State.pwmWrite_debug (s : State) (c : Chan) (v : BitVec 32) : (s.pwmWrite c v).debug = s.debug := rfl

/-! ### `State.setAuto` -/

@[simp] theorem State.setAuto_params (s : State) (c : Chan) (a : AutoState) : (s.setAuto c a).params = s.params := rfl
@[simp] theorem State.setAuto_cfg (s : State) (c : Chan) (a : AutoState) : (s.setAuto c a).cfg = s.cfg := rfl
@[simp] theorem State.setAuto_prog (s : State) (c : Chan) (a : AutoState) : (s.setAuto c a).prog = s.prog := rfl
@[simp] theorem State.setAuto_pc (s : State) (c : Chan) (a : AutoState) : (s.setAuto c a).pc = s.pc := rfl
@[simp] theorem State.setAuto_run (s : State) (c : Chan) (a : AutoState) : (s.setAuto c a).run = s.run := rfl
@[simp] theorem State.setAuto_phase (s : State) (c : Chan) (a : AutoState) : (s.setAuto c a).phase = s.phase := rfl
@[simp] theorem State.setAuto_raw (s : State) (c : Chan) (a : AutoState) : (s.setAuto c a).raw = s.raw := rfl
@[simp] theorem State.setAuto_rawValid (s : State) (c : Chan) (a : AutoState) :
    (s.setAuto c a).rawValid = s.rawValid := rfl
@[simp] theorem State.setAuto_filt (s : State) (c : Chan) (a : AutoState) : (s.setAuto c a).filt = s.filt := rfl
@[simp] theorem State.setAuto_inten (s : State) (c : Chan) (a : AutoState) : (s.setAuto c a).inten = s.inten := rfl
@[simp] theorem State.setAuto_duty (s : State) (c : Chan) (a : AutoState) : (s.setAuto c a).duty = s.duty := rfl
@[simp] theorem State.setAuto_nduty (s : State) (c : Chan) (a : AutoState) : (s.setAuto c a).nduty = s.nduty := rfl
@[simp] theorem State.setAuto_applied (s : State) (c : Chan) (a : AutoState) :
    (s.setAuto c a).applied = s.applied := rfl
@[simp] theorem State.setAuto_appliedValid (s : State) (c : Chan) (a : AutoState) :
    (s.setAuto c a).appliedValid = s.appliedValid := rfl
@[simp] theorem State.setAuto_rdata (s : State) (c : Chan) (a : AutoState) : (s.setAuto c a).rdata = s.rdata := rfl
@[simp] theorem State.setAuto_fdata (s : State) (c : Chan) (a : AutoState) : (s.setAuto c a).fdata = s.fdata := rfl
@[simp] theorem State.setAuto_autoMode (s : State) (c : Chan) (a : AutoState) :
    (s.setAuto c a).autoMode = s.autoMode := rfl
@[simp] theorem State.setAuto_rateChan (s : State) (c : Chan) (a : AutoState) :
    (s.setAuto c a).rateChan = s.rateChan := rfl
@[simp] theorem State.setAuto_anomalies (s : State) (c : Chan) (a : AutoState) :
    (s.setAuto c a).anomalies = s.anomalies := rfl
@[simp] theorem State.setAuto_faultRegs (s : State) (c : Chan) (a : AutoState) :
    (s.setAuto c a).faultRegs = s.faultRegs := rfl
@[simp] theorem State.setAuto_adc (s : State) (c : Chan) (a : AutoState) : (s.setAuto c a).adc = s.adc := rfl
@[simp] theorem State.setAuto_auto (s : State) (c : Chan) (a : AutoState) :
    (s.setAuto c a).auto = s.auto.set c a := rfl
@[simp] theorem State.setAuto_speedMag (s : State) (c : Chan) (a : AutoState) :
    (s.setAuto c a).speedMag = s.speedMag := rfl
@[simp] theorem State.setAuto_speedValid (s : State) (c : Chan) (a : AutoState) :
    (s.setAuto c a).speedValid = s.speedValid := rfl
@[simp] theorem State.setAuto_win (s : State) (c : Chan) (a : AutoState) : (s.setAuto c a).win = s.win := rfl
@[simp] theorem State.setAuto_wptr (s : State) (c : Chan) (a : AutoState) : (s.setAuto c a).wptr = s.wptr := rfl
@[simp] theorem State.setAuto_mapped (s : State) (c : Chan) (a : AutoState) : (s.setAuto c a).mapped = s.mapped := rfl
@[simp] theorem State.setAuto_closed (s : State) (c : Chan) (a : AutoState) : (s.setAuto c a).closed = s.closed := rfl
@[simp] theorem State.setAuto_pwm (s : State) (c : Chan) (a : AutoState) : (s.setAuto c a).pwm = s.pwm := rfl
@[simp] theorem State.setAuto_env (s : State) (c : Chan) (a : AutoState) : (s.setAuto c a).env = s.env := rfl
@[simp] theorem State.setAuto_log (s : State) (c : Chan) (a : AutoState) : (s.setAuto c a).log = s.log := rfl
@[simp] theorem State.setAuto_debug (s : State) (c : Chan) (a : AutoState) : (s.setAuto c a).debug = s.debug := rfl

/-! ### `State.markStale` -/

@[simp] theorem State.markStale_params (s : State) (n : Nat) : (s.markStale n).params = s.params := rfl
@[simp] theorem State.markStale_cfg (s : State) (n : Nat) : (s.markStale n).cfg = s.cfg := rfl
@[simp] theorem State.markStale_prog (s : State) (n : Nat) : (s.markStale n).prog = s.prog := rfl
@[simp] theorem State.markStale_pc (s : State) (n : Nat) : (s.markStale n).pc = s.pc := rfl
@[simp] theorem State.markStale_run (s : State) (n : Nat) : (s.markStale n).run = s.run := rfl
@[simp] theorem State.markStale_phase (s : State) (n : Nat) : (s.markStale n).phase = s.phase := rfl
@[simp] theorem State.markStale_raw (s : State) (n : Nat) : (s.markStale n).raw = s.raw := rfl
@[simp] theorem State.markStale_rawValid (s : State) (n : Nat) : (s.markStale n).rawValid = s.rawValid := rfl
@[simp] theorem State.markStale_filt (s : State) (n : Nat) : (s.markStale n).filt = s.filt := rfl
@[simp] theorem State.markStale_inten (s : State) (n : Nat) : (s.markStale n).inten = s.inten := rfl
@[simp] theorem State.markStale_duty (s : State) (n : Nat) : (s.markStale n).duty = s.duty := rfl
@[simp] theorem State.markStale_nduty (s : State) (n : Nat) : (s.markStale n).nduty = s.nduty := rfl
@[simp] theorem State.markStale_applied (s : State) (n : Nat) : (s.markStale n).applied = s.applied := rfl
@[simp] theorem State.markStale_appliedValid (s : State) (n : Nat) :
    (s.markStale n).appliedValid = s.appliedValid := rfl
@[simp] theorem State.markStale_rdata (s : State) (n : Nat) : (s.markStale n).rdata = s.rdata := rfl
@[simp] theorem State.markStale_fdata (s : State) (n : Nat) : (s.markStale n).fdata = s.fdata := rfl
@[simp] theorem State.markStale_autoMode (s : State) (n : Nat) : (s.markStale n).autoMode = s.autoMode := rfl
@[simp] theorem State.markStale_rateChan (s : State) (n : Nat) : (s.markStale n).rateChan = s.rateChan := rfl
@[simp] theorem State.markStale_anomalies (s : State) (n : Nat) :
    (s.markStale n).anomalies = { s.anomalies with stale := true } := rfl
@[simp] theorem State.markStale_faultRegs (s : State) (n : Nat) : (s.markStale n).faultRegs = s.faultRegs := rfl
@[simp] theorem State.markStale_adc (s : State) (n : Nat) : (s.markStale n).adc = s.adc := rfl
@[simp] theorem State.markStale_auto (s : State) (n : Nat) : (s.markStale n).auto = s.auto := rfl
@[simp] theorem State.markStale_speedMag (s : State) (n : Nat) : (s.markStale n).speedMag = s.speedMag := rfl
@[simp] theorem State.markStale_speedValid (s : State) (n : Nat) : (s.markStale n).speedValid = s.speedValid := rfl
@[simp] theorem State.markStale_win (s : State) (n : Nat) : (s.markStale n).win = s.win := rfl
@[simp] theorem State.markStale_wptr (s : State) (n : Nat) : (s.markStale n).wptr = s.wptr := rfl
@[simp] theorem State.markStale_mapped (s : State) (n : Nat) : (s.markStale n).mapped = s.mapped := rfl
@[simp] theorem State.markStale_closed (s : State) (n : Nat) : (s.markStale n).closed = s.closed := rfl
@[simp] theorem State.markStale_pwm (s : State) (n : Nat) : (s.markStale n).pwm = s.pwm := rfl
@[simp] theorem State.markStale_env (s : State) (n : Nat) : (s.markStale n).env = s.env := rfl
@[simp] theorem State.markStale_log (s : State) (n : Nat) : (s.markStale n).log = s.log ++ [.fifoStale n] := rfl
@[simp] theorem State.markStale_debug (s : State) (n : Nat) : (s.markStale n).debug = s.debug := rfl

/-! ### `State.markMissing` -/

@[simp] theorem State.markMissing_params (s : State) (c : Chan) : (s.markMissing c).params = s.params := rfl
@[simp] theorem State.markMissing_cfg (s : State) (c : Chan) : (s.markMissing c).cfg = s.cfg := rfl
@[simp] theorem State.markMissing_prog (s : State) (c : Chan) : (s.markMissing c).prog = s.prog := rfl
@[simp] theorem State.markMissing_pc (s : State) (c : Chan) : (s.markMissing c).pc = s.pc := rfl
@[simp] theorem State.markMissing_run (s : State) (c : Chan) : (s.markMissing c).run = s.run := rfl
@[simp] theorem State.markMissing_phase (s : State) (c : Chan) : (s.markMissing c).phase = s.phase := rfl
@[simp] theorem State.markMissing_raw (s : State) (c : Chan) : (s.markMissing c).raw = s.raw := rfl
@[simp] theorem State.markMissing_rawValid (s : State) (c : Chan) : (s.markMissing c).rawValid = s.rawValid := rfl
@[simp] theorem State.markMissing_filt (s : State) (c : Chan) : (s.markMissing c).filt = s.filt := rfl
@[simp] theorem State.markMissing_inten (s : State) (c : Chan) : (s.markMissing c).inten = s.inten := rfl
@[simp] theorem State.markMissing_duty (s : State) (c : Chan) : (s.markMissing c).duty = s.duty := rfl
@[simp] theorem State.markMissing_nduty (s : State) (c : Chan) : (s.markMissing c).nduty = s.nduty := rfl
@[simp] theorem State.markMissing_applied (s : State) (c : Chan) : (s.markMissing c).applied = s.applied := rfl
@[simp] theorem State.markMissing_appliedValid (s : State) (c : Chan) :
    (s.markMissing c).appliedValid = s.appliedValid := rfl
@[simp] theorem State.markMissing_rdata (s : State) (c : Chan) : (s.markMissing c).rdata = s.rdata := rfl
@[simp] theorem State.markMissing_fdata (s : State) (c : Chan) : (s.markMissing c).fdata = s.fdata := rfl
@[simp] theorem State.markMissing_autoMode (s : State) (c : Chan) : (s.markMissing c).autoMode = s.autoMode := rfl
@[simp] theorem State.markMissing_rateChan (s : State) (c : Chan) : (s.markMissing c).rateChan = s.rateChan := rfl
@[simp] theorem State.markMissing_anomalies (s : State) (c : Chan) :
    (s.markMissing c).anomalies = { s.anomalies with missing := true } := rfl
@[simp] theorem State.markMissing_faultRegs (s : State) (c : Chan) : (s.markMissing c).faultRegs = s.faultRegs := rfl
@[simp] theorem State.markMissing_adc (s : State) (c : Chan) : (s.markMissing c).adc = s.adc := rfl
@[simp] theorem State.markMissing_auto (s : State) (c : Chan) : (s.markMissing c).auto = s.auto := rfl
@[simp] theorem State.markMissing_speedMag (s : State) (c : Chan) : (s.markMissing c).speedMag = s.speedMag := rfl
@[simp] theorem State.markMissing_speedValid (s : State) (c : Chan) :
    (s.markMissing c).speedValid = s.speedValid := rfl
@[simp] theorem State.markMissing_win (s : State) (c : Chan) : (s.markMissing c).win = s.win := rfl
@[simp] theorem State.markMissing_wptr (s : State) (c : Chan) : (s.markMissing c).wptr = s.wptr := rfl
@[simp] theorem State.markMissing_mapped (s : State) (c : Chan) : (s.markMissing c).mapped = s.mapped := rfl
@[simp] theorem State.markMissing_closed (s : State) (c : Chan) : (s.markMissing c).closed = s.closed := rfl
@[simp] theorem State.markMissing_pwm (s : State) (c : Chan) : (s.markMissing c).pwm = s.pwm := rfl
@[simp] theorem State.markMissing_env (s : State) (c : Chan) : (s.markMissing c).env = s.env := rfl
@[simp] theorem State.markMissing_log (s : State) (c : Chan) : (s.markMissing c).log = s.log ++ [.missing c] := rfl
@[simp] theorem State.markMissing_debug (s : State) (c : Chan) : (s.markMissing c).debug = s.debug := rfl

/-! ### `State.markBadTag` -/

@[simp] theorem State.markBadTag_params (s : State) (w : Word) : (s.markBadTag w).params = s.params := rfl
@[simp] theorem State.markBadTag_cfg (s : State) (w : Word) : (s.markBadTag w).cfg = s.cfg := rfl
@[simp] theorem State.markBadTag_prog (s : State) (w : Word) : (s.markBadTag w).prog = s.prog := rfl
@[simp] theorem State.markBadTag_pc (s : State) (w : Word) : (s.markBadTag w).pc = s.pc := rfl
@[simp] theorem State.markBadTag_run (s : State) (w : Word) : (s.markBadTag w).run = s.run := rfl
@[simp] theorem State.markBadTag_phase (s : State) (w : Word) : (s.markBadTag w).phase = s.phase := rfl
@[simp] theorem State.markBadTag_raw (s : State) (w : Word) : (s.markBadTag w).raw = s.raw := rfl
@[simp] theorem State.markBadTag_rawValid (s : State) (w : Word) : (s.markBadTag w).rawValid = s.rawValid := rfl
@[simp] theorem State.markBadTag_filt (s : State) (w : Word) : (s.markBadTag w).filt = s.filt := rfl
@[simp] theorem State.markBadTag_inten (s : State) (w : Word) : (s.markBadTag w).inten = s.inten := rfl
@[simp] theorem State.markBadTag_duty (s : State) (w : Word) : (s.markBadTag w).duty = s.duty := rfl
@[simp] theorem State.markBadTag_nduty (s : State) (w : Word) : (s.markBadTag w).nduty = s.nduty := rfl
@[simp] theorem State.markBadTag_applied (s : State) (w : Word) : (s.markBadTag w).applied = s.applied := rfl
@[simp] theorem State.markBadTag_appliedValid (s : State) (w : Word) :
    (s.markBadTag w).appliedValid = s.appliedValid := rfl
@[simp] theorem State.markBadTag_rdata (s : State) (w : Word) : (s.markBadTag w).rdata = s.rdata := rfl
@[simp] theorem State.markBadTag_fdata (s : State) (w : Word) : (s.markBadTag w).fdata = s.fdata := rfl
@[simp] theorem State.markBadTag_autoMode (s : State) (w : Word) : (s.markBadTag w).autoMode = s.autoMode := rfl
@[simp] theorem State.markBadTag_rateChan (s : State) (w : Word) : (s.markBadTag w).rateChan = s.rateChan := rfl
@[simp] theorem State.markBadTag_anomalies (s : State) (w : Word) :
    (s.markBadTag w).anomalies = { s.anomalies with badTag := true } := rfl
@[simp] theorem State.markBadTag_faultRegs (s : State) (w : Word) : (s.markBadTag w).faultRegs = s.faultRegs := rfl
@[simp] theorem State.markBadTag_adc (s : State) (w : Word) : (s.markBadTag w).adc = s.adc := rfl
@[simp] theorem State.markBadTag_auto (s : State) (w : Word) : (s.markBadTag w).auto = s.auto := rfl
@[simp] theorem State.markBadTag_speedMag (s : State) (w : Word) : (s.markBadTag w).speedMag = s.speedMag := rfl
@[simp] theorem State.markBadTag_speedValid (s : State) (w : Word) : (s.markBadTag w).speedValid = s.speedValid := rfl
@[simp] theorem State.markBadTag_win (s : State) (w : Word) : (s.markBadTag w).win = s.win := rfl
@[simp] theorem State.markBadTag_wptr (s : State) (w : Word) : (s.markBadTag w).wptr = s.wptr := rfl
@[simp] theorem State.markBadTag_mapped (s : State) (w : Word) : (s.markBadTag w).mapped = s.mapped := rfl
@[simp] theorem State.markBadTag_closed (s : State) (w : Word) : (s.markBadTag w).closed = s.closed := rfl
@[simp] theorem State.markBadTag_pwm (s : State) (w : Word) : (s.markBadTag w).pwm = s.pwm := rfl
@[simp] theorem State.markBadTag_env (s : State) (w : Word) : (s.markBadTag w).env = s.env := rfl
@[simp] theorem State.markBadTag_log (s : State) (w : Word) : (s.markBadTag w).log = s.log ++ [.badTag w] := rfl
@[simp] theorem State.markBadTag_debug (s : State) (w : Word) : (s.markBadTag w).debug = s.debug := rfl

/-! ### `State.markDup` -/

@[simp] theorem State.markDup_params (s : State) (w : Word) : (s.markDup w).params = s.params := rfl
@[simp] theorem State.markDup_cfg (s : State) (w : Word) : (s.markDup w).cfg = s.cfg := rfl
@[simp] theorem State.markDup_prog (s : State) (w : Word) : (s.markDup w).prog = s.prog := rfl
@[simp] theorem State.markDup_pc (s : State) (w : Word) : (s.markDup w).pc = s.pc := rfl
@[simp] theorem State.markDup_run (s : State) (w : Word) : (s.markDup w).run = s.run := rfl
@[simp] theorem State.markDup_phase (s : State) (w : Word) : (s.markDup w).phase = s.phase := rfl
@[simp] theorem State.markDup_raw (s : State) (w : Word) : (s.markDup w).raw = s.raw := rfl
@[simp] theorem State.markDup_rawValid (s : State) (w : Word) : (s.markDup w).rawValid = s.rawValid := rfl
@[simp] theorem State.markDup_filt (s : State) (w : Word) : (s.markDup w).filt = s.filt := rfl
@[simp] theorem State.markDup_inten (s : State) (w : Word) : (s.markDup w).inten = s.inten := rfl
@[simp] theorem State.markDup_duty (s : State) (w : Word) : (s.markDup w).duty = s.duty := rfl
@[simp] theorem State.markDup_nduty (s : State) (w : Word) : (s.markDup w).nduty = s.nduty := rfl
@[simp] theorem State.markDup_applied (s : State) (w : Word) : (s.markDup w).applied = s.applied := rfl
@[simp] theorem State.markDup_appliedValid (s : State) (w : Word) : (s.markDup w).appliedValid = s.appliedValid := rfl
@[simp] theorem State.markDup_rdata (s : State) (w : Word) : (s.markDup w).rdata = s.rdata := rfl
@[simp] theorem State.markDup_fdata (s : State) (w : Word) : (s.markDup w).fdata = s.fdata := rfl
@[simp] theorem State.markDup_autoMode (s : State) (w : Word) : (s.markDup w).autoMode = s.autoMode := rfl
@[simp] theorem State.markDup_rateChan (s : State) (w : Word) : (s.markDup w).rateChan = s.rateChan := rfl
@[simp] theorem State.markDup_anomalies (s : State) (w : Word) :
    (s.markDup w).anomalies = { s.anomalies with dup := true } := rfl
@[simp] theorem State.markDup_faultRegs (s : State) (w : Word) : (s.markDup w).faultRegs = s.faultRegs := rfl
@[simp] theorem State.markDup_adc (s : State) (w : Word) : (s.markDup w).adc = s.adc := rfl
@[simp] theorem State.markDup_auto (s : State) (w : Word) : (s.markDup w).auto = s.auto := rfl
@[simp] theorem State.markDup_speedMag (s : State) (w : Word) : (s.markDup w).speedMag = s.speedMag := rfl
@[simp] theorem State.markDup_speedValid (s : State) (w : Word) : (s.markDup w).speedValid = s.speedValid := rfl
@[simp] theorem State.markDup_win (s : State) (w : Word) : (s.markDup w).win = s.win := rfl
@[simp] theorem State.markDup_wptr (s : State) (w : Word) : (s.markDup w).wptr = s.wptr := rfl
@[simp] theorem State.markDup_mapped (s : State) (w : Word) : (s.markDup w).mapped = s.mapped := rfl
@[simp] theorem State.markDup_closed (s : State) (w : Word) : (s.markDup w).closed = s.closed := rfl
@[simp] theorem State.markDup_pwm (s : State) (w : Word) : (s.markDup w).pwm = s.pwm := rfl
@[simp] theorem State.markDup_env (s : State) (w : Word) : (s.markDup w).env = s.env := rfl
@[simp] theorem State.markDup_log (s : State) (w : Word) : (s.markDup w).log = s.log ++ [.dupTag w] := rfl
@[simp] theorem State.markDup_debug (s : State) (w : Word) : (s.markDup w).debug = s.debug := rfl

/-! ### `State.startWait` -/

@[simp] theorem State.startWait_params (s : State) (p : Time → Phase) : (s.startWait p).params = s.params := rfl
@[simp] theorem State.startWait_cfg (s : State) (p : Time → Phase) : (s.startWait p).cfg = s.cfg := rfl
@[simp] theorem State.startWait_prog (s : State) (p : Time → Phase) : (s.startWait p).prog = s.prog := rfl
@[simp] theorem State.startWait_pc (s : State) (p : Time → Phase) : (s.startWait p).pc = s.pc := rfl
@[simp] theorem State.startWait_run (s : State) (p : Time → Phase) : (s.startWait p).run = .waiting := rfl
@[simp] theorem State.startWait_phase (s : State) (p : Time → Phase) : (s.startWait p).phase = p s.env.now := rfl
@[simp] theorem State.startWait_raw (s : State) (p : Time → Phase) : (s.startWait p).raw = s.raw := rfl
@[simp] theorem State.startWait_rawValid (s : State) (p : Time → Phase) : (s.startWait p).rawValid = s.rawValid := rfl
@[simp] theorem State.startWait_filt (s : State) (p : Time → Phase) : (s.startWait p).filt = s.filt := rfl
@[simp] theorem State.startWait_inten (s : State) (p : Time → Phase) : (s.startWait p).inten = s.inten := rfl
@[simp] theorem State.startWait_duty (s : State) (p : Time → Phase) : (s.startWait p).duty = s.duty := rfl
@[simp] theorem State.startWait_nduty (s : State) (p : Time → Phase) : (s.startWait p).nduty = s.nduty := rfl
@[simp] theorem State.startWait_applied (s : State) (p : Time → Phase) : (s.startWait p).applied = s.applied := rfl
@[simp] theorem State.startWait_appliedValid (s : State) (p : Time → Phase) :
    (s.startWait p).appliedValid = s.appliedValid := rfl
@[simp] theorem State.startWait_rdata (s : State) (p : Time → Phase) : (s.startWait p).rdata = s.rdata := rfl
@[simp] theorem State.startWait_fdata (s : State) (p : Time → Phase) : (s.startWait p).fdata = s.fdata := rfl
@[simp] theorem State.startWait_autoMode (s : State) (p : Time → Phase) : (s.startWait p).autoMode = s.autoMode := rfl
@[simp] theorem State.startWait_rateChan (s : State) (p : Time → Phase) : (s.startWait p).rateChan = s.rateChan := rfl
@[simp] theorem State.startWait_anomalies (s : State) (p : Time → Phase) :
    (s.startWait p).anomalies = s.anomalies := rfl
@[simp] theorem State.startWait_faultRegs (s : State) (p : Time → Phase) :
    (s.startWait p).faultRegs = s.faultRegs := rfl
@[simp] theorem State.startWait_adc (s : State) (p : Time → Phase) : (s.startWait p).adc = s.adc := rfl
@[simp] theorem State.startWait_auto (s : State) (p : Time → Phase) : (s.startWait p).auto = s.auto := rfl
@[simp] theorem State.startWait_speedMag (s : State) (p : Time → Phase) : (s.startWait p).speedMag = s.speedMag := rfl
@[simp] theorem State.startWait_speedValid (s : State) (p : Time → Phase) :
    (s.startWait p).speedValid = s.speedValid := rfl
@[simp] theorem State.startWait_win (s : State) (p : Time → Phase) : (s.startWait p).win = s.win := rfl
@[simp] theorem State.startWait_wptr (s : State) (p : Time → Phase) : (s.startWait p).wptr = s.wptr := rfl
@[simp] theorem State.startWait_mapped (s : State) (p : Time → Phase) : (s.startWait p).mapped = s.mapped := rfl
@[simp] theorem State.startWait_closed (s : State) (p : Time → Phase) : (s.startWait p).closed = s.closed := rfl
@[simp] theorem State.startWait_pwm (s : State) (p : Time → Phase) : (s.startWait p).pwm = s.pwm := rfl
@[simp] theorem State.startWait_env (s : State) (p : Time → Phase) : (s.startWait p).env = s.env := rfl
@[simp] theorem State.startWait_log (s : State) (p : Time → Phase) : (s.startWait p).log = s.log := rfl
@[simp] theorem State.startWait_debug (s : State) (p : Time → Phase) : (s.startWait p).debug = s.debug := rfl

/-! ### `State.latchClock` -/

@[simp] theorem State.latchClock_params (s : State) : s.latchClock.params = s.params := rfl
@[simp] theorem State.latchClock_cfg (s : State) : s.latchClock.cfg = s.cfg := rfl
@[simp] theorem State.latchClock_prog (s : State) : s.latchClock.prog = s.prog := rfl
@[simp] theorem State.latchClock_pc (s : State) : s.latchClock.pc = s.pc := rfl
@[simp] theorem State.latchClock_run (s : State) : s.latchClock.run = s.run := rfl
@[simp] theorem State.latchClock_phase (s : State) : s.latchClock.phase = s.phase := rfl
@[simp] theorem State.latchClock_raw (s : State) : s.latchClock.raw = s.raw := rfl
@[simp] theorem State.latchClock_rawValid (s : State) : s.latchClock.rawValid = s.rawValid := rfl
@[simp] theorem State.latchClock_filt (s : State) : s.latchClock.filt = s.filt := rfl
@[simp] theorem State.latchClock_inten (s : State) : s.latchClock.inten = s.inten := rfl
@[simp] theorem State.latchClock_duty (s : State) : s.latchClock.duty = s.duty := rfl
@[simp] theorem State.latchClock_nduty (s : State) : s.latchClock.nduty = s.nduty := rfl
@[simp] theorem State.latchClock_applied (s : State) : s.latchClock.applied = s.applied := rfl
@[simp] theorem State.latchClock_appliedValid (s : State) : s.latchClock.appliedValid = s.appliedValid := rfl
@[simp] theorem State.latchClock_rdata (s : State) : s.latchClock.rdata = s.rdata := rfl
@[simp] theorem State.latchClock_fdata (s : State) : s.latchClock.fdata = s.fdata := rfl
@[simp] theorem State.latchClock_autoMode (s : State) : s.latchClock.autoMode = s.autoMode := rfl
@[simp] theorem State.latchClock_rateChan (s : State) : s.latchClock.rateChan = s.rateChan := rfl
@[simp] theorem State.latchClock_anomalies (s : State) : s.latchClock.anomalies = s.anomalies := rfl
@[simp] theorem State.latchClock_faultRegs (s : State) : s.latchClock.faultRegs = s.faultRegs := rfl
@[simp] theorem State.latchClock_adc (s : State) : s.latchClock.adc = { s.adc with clkOn := s.adc.clkReq } := rfl
@[simp] theorem State.latchClock_auto (s : State) : s.latchClock.auto = s.auto := rfl
@[simp] theorem State.latchClock_speedMag (s : State) : s.latchClock.speedMag = s.speedMag := rfl
@[simp] theorem State.latchClock_speedValid (s : State) : s.latchClock.speedValid = s.speedValid := rfl
@[simp] theorem State.latchClock_win (s : State) : s.latchClock.win = s.win := rfl
@[simp] theorem State.latchClock_wptr (s : State) : s.latchClock.wptr = s.wptr := rfl
@[simp] theorem State.latchClock_mapped (s : State) : s.latchClock.mapped = s.mapped := rfl
@[simp] theorem State.latchClock_closed (s : State) : s.latchClock.closed = s.closed := rfl
@[simp] theorem State.latchClock_pwm (s : State) : s.latchClock.pwm = s.pwm := rfl
@[simp] theorem State.latchClock_env (s : State) : s.latchClock.env = s.env := rfl
@[simp] theorem State.latchClock_log (s : State) : s.latchClock.log = s.log := rfl
@[simp] theorem State.latchClock_debug (s : State) : s.latchClock.debug = s.debug := rfl

/-! ### `State.requestStop` -/

@[simp] theorem State.requestStop_params (s : State) : s.requestStop.params = s.params := rfl
@[simp] theorem State.requestStop_cfg (s : State) : s.requestStop.cfg = s.cfg := rfl
@[simp] theorem State.requestStop_prog (s : State) : s.requestStop.prog = s.prog := rfl
@[simp] theorem State.requestStop_pc (s : State) : s.requestStop.pc = s.pc := rfl
@[simp] theorem State.requestStop_run (s : State) : s.requestStop.run = s.run := rfl
@[simp] theorem State.requestStop_phase (s : State) : s.requestStop.phase = s.phase := rfl
@[simp] theorem State.requestStop_raw (s : State) : s.requestStop.raw = s.raw := rfl
@[simp] theorem State.requestStop_rawValid (s : State) : s.requestStop.rawValid = s.rawValid := rfl
@[simp] theorem State.requestStop_filt (s : State) : s.requestStop.filt = s.filt := rfl
@[simp] theorem State.requestStop_inten (s : State) : s.requestStop.inten = s.inten := rfl
@[simp] theorem State.requestStop_duty (s : State) : s.requestStop.duty = s.duty := rfl
@[simp] theorem State.requestStop_nduty (s : State) : s.requestStop.nduty = s.nduty := rfl
@[simp] theorem State.requestStop_applied (s : State) : s.requestStop.applied = s.applied := rfl
@[simp] theorem State.requestStop_appliedValid (s : State) : s.requestStop.appliedValid = s.appliedValid := rfl
@[simp] theorem State.requestStop_rdata (s : State) : s.requestStop.rdata = s.rdata := rfl
@[simp] theorem State.requestStop_fdata (s : State) : s.requestStop.fdata = s.fdata := rfl
@[simp] theorem State.requestStop_autoMode (s : State) : s.requestStop.autoMode = s.autoMode := rfl
@[simp] theorem State.requestStop_rateChan (s : State) : s.requestStop.rateChan = s.rateChan := rfl
@[simp] theorem State.requestStop_anomalies (s : State) : s.requestStop.anomalies = s.anomalies := rfl
@[simp] theorem State.requestStop_faultRegs (s : State) : s.requestStop.faultRegs = s.faultRegs := rfl
@[simp] theorem State.requestStop_adc (s : State) : s.requestStop.adc = s.adc := rfl
@[simp] theorem State.requestStop_auto (s : State) : s.requestStop.auto = s.auto := rfl
@[simp] theorem State.requestStop_speedMag (s : State) : s.requestStop.speedMag = s.speedMag := rfl
@[simp] theorem State.requestStop_speedValid (s : State) : s.requestStop.speedValid = s.speedValid := rfl
@[simp] theorem State.requestStop_win (s : State) : s.requestStop.win = s.win := rfl
@[simp] theorem State.requestStop_wptr (s : State) : s.requestStop.wptr = s.wptr := rfl
@[simp] theorem State.requestStop_mapped (s : State) : s.requestStop.mapped = s.mapped := rfl
@[simp] theorem State.requestStop_closed (s : State) : s.requestStop.closed = s.closed := rfl
@[simp] theorem State.requestStop_pwm (s : State) : s.requestStop.pwm = s.pwm := rfl
@[simp] theorem State.requestStop_env (s : State) : s.requestStop.env = { s.env with stopReq := true } := rfl
@[simp] theorem State.requestStop_log (s : State) : s.requestStop.log = s.log := rfl
@[simp] theorem State.requestStop_debug (s : State) : s.requestStop.debug = s.debug := rfl

/-! ### `State.dropTurn` -/

@[simp] theorem State.dropTurn_params (s : State) : s.dropTurn.params = s.params := rfl
@[simp] theorem State.dropTurn_cfg (s : State) : s.dropTurn.cfg = s.cfg := rfl
@[simp] theorem State.dropTurn_prog (s : State) : s.dropTurn.prog = s.prog := rfl
@[simp] theorem State.dropTurn_pc (s : State) : s.dropTurn.pc = s.pc := rfl
@[simp] theorem State.dropTurn_run (s : State) : s.dropTurn.run = s.run := rfl
@[simp] theorem State.dropTurn_phase (s : State) : s.dropTurn.phase = s.phase := rfl
@[simp] theorem State.dropTurn_raw (s : State) : s.dropTurn.raw = s.raw := rfl
@[simp] theorem State.dropTurn_rawValid (s : State) : s.dropTurn.rawValid = s.rawValid := rfl
@[simp] theorem State.dropTurn_filt (s : State) : s.dropTurn.filt = s.filt := rfl
@[simp] theorem State.dropTurn_inten (s : State) : s.dropTurn.inten = s.inten := rfl
@[simp] theorem State.dropTurn_duty (s : State) : s.dropTurn.duty = s.duty := rfl
@[simp] theorem State.dropTurn_nduty (s : State) : s.dropTurn.nduty = s.nduty := rfl
@[simp] theorem State.dropTurn_applied (s : State) : s.dropTurn.applied = s.applied := rfl
@[simp] theorem State.dropTurn_appliedValid (s : State) : s.dropTurn.appliedValid = s.appliedValid := rfl
@[simp] theorem State.dropTurn_rdata (s : State) : s.dropTurn.rdata = s.rdata := rfl
@[simp] theorem State.dropTurn_fdata (s : State) : s.dropTurn.fdata = s.fdata := rfl
@[simp] theorem State.dropTurn_autoMode (s : State) : s.dropTurn.autoMode = s.autoMode := rfl
@[simp] theorem State.dropTurn_rateChan (s : State) : s.dropTurn.rateChan = s.rateChan := rfl
@[simp] theorem State.dropTurn_anomalies (s : State) : s.dropTurn.anomalies = s.anomalies := rfl
@[simp] theorem State.dropTurn_faultRegs (s : State) : s.dropTurn.faultRegs = s.faultRegs := rfl
@[simp] theorem State.dropTurn_adc (s : State) : s.dropTurn.adc = s.adc := rfl
@[simp] theorem State.dropTurn_auto (s : State) : s.dropTurn.auto = s.auto := rfl
@[simp] theorem State.dropTurn_speedMag (s : State) : s.dropTurn.speedMag = s.speedMag := rfl
@[simp] theorem State.dropTurn_speedValid (s : State) : s.dropTurn.speedValid = s.speedValid := rfl
@[simp] theorem State.dropTurn_win (s : State) : s.dropTurn.win = s.win := rfl
@[simp] theorem State.dropTurn_wptr (s : State) : s.dropTurn.wptr = s.wptr := rfl
@[simp] theorem State.dropTurn_mapped (s : State) : s.dropTurn.mapped = s.mapped := rfl
@[simp] theorem State.dropTurn_closed (s : State) : s.dropTurn.closed = s.closed := rfl
@[simp] theorem State.dropTurn_pwm (s : State) : s.dropTurn.pwm = s.pwm := rfl
@[simp] theorem State.dropTurn_env (s : State) : s.dropTurn.env = { s.env with script := s.env.script.tail } := rfl
@[simp] theorem State.dropTurn_log (s : State) : s.dropTurn.log = s.log := rfl
@[simp] theorem State.dropTurn_debug (s : State) : s.dropTurn.debug = s.debug := rfl

end Machine

end Sys2Proof
end

