-- ==== Sys2Proof/Laws/Window.lean ====
section
/-! SUPPORT. The register window: which register a byte offset names when the parameters are legal. -/

namespace Sys2Proof.Machine

/-- The offsets of the window's registers are the parameters'. -/
theorem regMap_offsets (p : Params) : (regMap p).map Prod.fst = p.offsets := rfl

/-- A search by range in a list of distinct bases, multiples of 4, finds the entry whose four bytes hold the offset. -/
theorem findSome_of_mem {α : Type} (l : List (Nat × α)) (hn : (l.map Prod.fst).Nodup)
    (h4 : ∀ o ∈ l.map Prod.fst, o % 4 = 0) {b : Nat} {r : α} (hm : (b, r) ∈ l) {i : Nat} (hi : i < 4) :
    (l.findSome? fun e => if e.1 ≤ b + i ∧ b + i < e.1 + 4 then some (e.2, b + i - e.1) else none) = some (r, i) := by
  induction l with
  | nil => simp at hm
  | cons e l ih =>
    simp only [List.map_cons, List.nodup_cons] at hn
    have he : e.1 % 4 = 0 := h4 e.1 (by simp)
    have hb : b % 4 = 0 := h4 b (List.mem_map.2 ⟨(b, r), hm, rfl⟩)
    rcases List.mem_cons.1 hm with rfl | hm'
    · simp [hi]
    · have hne : e.1 ≠ b := fun h => hn.1 (h ▸ List.mem_map.2 ⟨(b, r), hm', rfl⟩)
      rw [List.findSome?_cons, if_neg (by omega)]
      exact ih hn.2 (fun o ho => h4 o (by simp [ho])) hm'

/-- Under legal offsets the four bytes from a register's offset on are its bytes 0 to 3 (20_memory.md R42). -/
theorem locate_of_mem {p : Params} (h : p.WindowLegal) {b : Nat} {r : WinReg} (hm : (b, r) ∈ regMap p) {i : Nat}
    (hi : i < 4) : locate p (b + i) = some (r, i) :=
  findSome_of_mem (regMap p) h.2.2.1 (fun o ho => (h.2.2.2 o ho).1) hm hi

theorem locate_of_mem_zero {p : Params} (h : p.WindowLegal) {b : Nat} {r : WinReg} (hm : (b, r) ∈ regMap p) :
    locate p b = some (r, 0) := locate_of_mem h hm (by decide : 0 < 4)

/-- An offset of no register names none (20_memory.md R43, R44). -/
theorem locate_eq_none {p : Params} {off : Nat} (h : ∀ o ∈ p.offsets, off < o ∨ o + 4 ≤ off) : locate p off = none := by
  unfold locate
  rw [List.findSome?_eq_none_iff]
  intro e he
  have := h e.1 (by rw [← regMap_offsets]; exact List.mem_map.2 ⟨e, he, rfl⟩)
  rw [if_neg (by omega)]

/-- What `locate` answers is a register of the map and the offset's place in it. -/
theorem locate_eq_some {p : Params} {off : Nat} {r : WinReg} {i : Nat} (h : locate p off = some (r, i)) :
    ∃ b, (b, r) ∈ regMap p ∧ b ≤ off ∧ off < b + 4 ∧ i = off - b := by
  unfold locate at h
  obtain ⟨e, he, h'⟩ := List.exists_of_findSome?_eq_some h
  split at h'
  · obtain ⟨rfl, rfl⟩ : e.2 = r ∧ off - e.1 = i := by simpa using h'
    exact ⟨e.1, he, by omega, by omega, rfl⟩
  · simp at h'

/-- A register's four bytes lie inside the window. -/
theorem offset_lt_winSize {p : Params} (h : p.WindowLegal) {b : Nat} {r : WinReg} (hm : (b, r) ∈ regMap p) {i : Nat}
    (hi : i < 4) : b + i < p.winSize := by
  have := (h.2.2.2 b (by rw [← regMap_offsets]; exact List.mem_map.2 ⟨(b, r), hm, rfl⟩)).2
  omega

/-! The entries of the map. -/

theorem clkctrl_mem (p : Params) : (p.offClkctrl, WinReg.clkctrl) ∈ regMap p := by simp [regMap]
theorem ctrl_mem (p : Params) : (p.offCtrl, WinReg.ctrl) ∈ regMap p := by simp [regMap]
theorem clkdiv_mem (p : Params) : (p.offClkdiv, WinReg.clkdiv) ∈ regMap p := by simp [regMap]
theorem stepen_mem (p : Params) : (p.offStepen, WinReg.stepen) ∈ regMap p := by simp [regMap]
theorem fifocnt_mem (p : Params) : (p.offFifocnt, WinReg.fifocnt) ∈ regMap p := by simp [regMap]
theorem fifodata_mem (p : Params) : (p.offFifodata, WinReg.fifodata) ∈ regMap p := by simp [regMap]
theorem stepcfg_mem (p : Params) (k : Chan) : (p.offStepcfg.get k, WinReg.stepcfg k) ∈ regMap p := by
  match k with
  | 0 => simp [regMap, Quad.get]
  | 1 => simp [regMap, Quad.get]
  | 2 => simp [regMap, Quad.get]
  | 3 => simp [regMap, Quad.get]
theorem stepdly_mem (p : Params) (k : Chan) : (p.offStepdly.get k, WinReg.stepdly k) ∈ regMap p := by
  match k with
  | 0 => simp [regMap, Quad.get]
  | 1 => simp [regMap, Quad.get]
  | 2 => simp [regMap, Quad.get]
  | 3 => simp [regMap, Quad.get]

/-- A byte write of a mapped register's byte: the next state holds `winWrite` (20_memory.md R44). -/
theorem memWrite_register {s : State} (hs : s.mapped = true) (h : s.params.WindowLegal) {b : Nat} {r : WinReg}
    (hm : (b, r) ∈ regMap s.params) {i : Nat} (hi : i < 4) (v : Byte) :
    s.memWrite (b + i) v = .ok { s with adc := winWrite s.adc r i v } := by
  have hlt := offset_lt_winSize h hm hi
  simp [State.memWrite, hs, locate_of_mem h hm hi]
  omega

/-- A byte read of a mapped register's byte, `FIFODATA` apart (20_memory.md R43). -/
theorem memRead_register {s : State} (hs : s.mapped = true) (h : s.params.WindowLegal) {b : Nat} {r : WinReg}
    (hm : (b, r) ∈ regMap s.params) (hr : r ≠ .fifodata) {i : Nat} (hi : i < 4) :
    s.memRead (b + i) = .ok (winRead s.adc r i) := by
  have hlt := offset_lt_winSize h hm hi
  have : ¬ s.params.winSize ≤ b + i := by omega
  cases r <;> simp_all [State.memRead, locate_of_mem h hm hi]

/-- Without a mapping, or outside the window, a byte access is refused with `E_ACCESS` (20_memory.md R47). -/
theorem memWrite_refused {s : State} {off : Nat} (h : s.mapped = false ∨ s.params.winSize ≤ off) (v : Byte) :
    s.memWrite off v = .error (accessTrap off) := by simp [State.memWrite, h]

theorem memRead_refused {s : State} {off : Nat} (h : s.mapped = false ∨ s.params.winSize ≤ off) :
    s.memRead off = .error (accessTrap off) := by simp [State.memRead, h]

/-- Everything a byte write can do: a fault entry's reason, or a change of the window registers' backing state alone. -/
theorem memWrite_cases (s : State) (off : Nat) (v : Byte) :
    s.memWrite off v = .error (accessTrap off) ∨
      ∃ r i, locate s.params off = some (r, i) ∧ s.memWrite off v = .ok { s with adc := winWrite s.adc r i v } := by
  unfold State.memWrite
  split
  · exact .inl rfl
  · split
    · next r i hl => exact .inr ⟨r, i, hl, rfl⟩
    · exact .inl rfl

/-- A byte write never changes the FIFO. -/
@[simp] theorem winWrite_fifo (a : AdcSide) (r : WinReg) (i : Nat) (v : Byte) : (winWrite a r i v).fifo = a.fifo := by
  unfold winWrite
  split <;> first | rfl | (split <;> rfl)

/-- A byte write never changes what a read of `CLKCTRL` returns (10_state.md R29). -/
@[simp] theorem winWrite_clkOn (a : AdcSide) (r : WinReg) (i : Nat) (v : Byte) :
    (winWrite a r i v).clkOn = a.clkOn := by
  unfold winWrite
  split <;> first | rfl | (split <;> rfl)

end Sys2Proof.Machine
end

