-- ==== Sys2Proof/Laws/Frame.lean ====
section
/-! SUPPORT. How frames compose, and the frame of each shared operation. -/

namespace Sys2Proof.Machine

theorem OnlyChanges.refl (l : List Field) (s : State) : OnlyChanges l s s := by
  intro f _
  cases f <;> first | rfl | exact fun _ => rfl

theorem OnlyChanges.mono {l l' : List Field} {s t : State} (h : OnlyChanges l s t) (hl : ∀ f ∈ l, f ∈ l') :
    OnlyChanges l' s t := fun f hf => h f fun h' => hf (hl f h')

theorem OnlyChanges.trans {l : List Field} {s t u : State} (h : OnlyChanges l s t) (h' : OnlyChanges l t u) :
    OnlyChanges l s u := by
  intro f hf
  have a := h f hf
  have b := h' f hf
  cases f <;> first | exact Eq.trans b a | exact fun c => Eq.trans (b c) (a c)

/-- A step that answers `t` completes the operation when `pc` moved on by one and the frame holds. -/
theorem Completes.of_exec {i : Instr} {s t : State} {l : List Field} {P : State → Prop} (h : exec i s = .next t)
    (hpc : t.pc = s.pc + 1) (hl : OnlyChanges (.pc :: l) s t) (hP : P t) : Completes i s l P := ⟨t, h, hpc, hl, hP⟩

theorem OthersKept.refl {α : Type} (c : Chan) (q : Quad α) : OthersKept c q q := fun _ _ => rfl

theorem OthersKept.set {α : Type} (c : Chan) (q : Quad α) (v : α) : OthersKept c q (q.set c v) :=
  fun _ hd => Quad.get_set_other q v hd

/-! The frames. -/

theorem State.advance_frame (s : State) : OnlyChanges [.pc] s s.advance := by
  intro f hf
  cases f <;> first | rfl | exact fun _ => rfl | exact absurd (by simp) hf

theorem State.complete_frame (s : State) : OnlyChanges [.pc, .phase] s s.complete := by
  intro f hf
  cases f <;> first | rfl | exact fun _ => rfl | exact absurd (by simp) hf

theorem State.nextFree_frame (s : State) : OnlyChanges [.freeIx] s s.nextFree := by
  intro f hf
  cases f <;> first | rfl | exact fun _ => rfl | exact absurd (by simp) hf

theorem State.dropTurn_frame (s : State) : OnlyChanges [.script] s s.dropTurn := by
  intro f hf
  cases f <;> first | rfl | exact fun _ => rfl | exact absurd (by simp) hf

theorem State.tick_frame (s : State) (d : Nat) : OnlyChanges [.now] s (s.tick d) := by
  intro f hf
  cases f <;> first | rfl | exact fun _ => rfl | exact absurd (by simp) hf

/-- Fault entry touches the fault registers, the log and the run state (60_exceptions.md R176). -/
theorem State.raise_frame (s : State) (f : BlockFault) (info : Word) :
    OnlyChanges [.fault, .faultInfo, .faultPc, .exitStatus, .log, .run, .phase, .freeIx] s (s.raise f info) := by
  intro g hg
  cases g <;> first | rfl | exact fun _ => rfl | exact absurd (by simp) hg

/-- An update of the median window touches the window, its pointer and the output (42_median_filter.md R111). -/
theorem State.medianUpdate_frame (s : State) (c : Chan) (x : Sample) :
    OnlyChanges [.win, .wptr, .filt] s (s.medianUpdate c x) := by
  intro f hf
  cases f <;> first | rfl | exact fun _ => rfl | exact absurd (by simp) hf

/-- A write of a PWM line touches the pair and the count (44_duty_controller.md R145). -/
theorem State.pwmWrite_frame (s : State) (c : Chan) (v : BitVec 32) :
    OnlyChanges [.pwmPeriod, .pwmDuty, .pwmWrites, .freeIx] s (s.pwmWrite c v) := by
  intro f hf
  cases f <;> first | rfl | exact fun _ => rfl | exact absurd (by simp) hf

/-- The pop of the 32-bit read touches the FIFO (20_memory.md R45). -/
theorem State.fifoPop_frame (s : State) : OnlyChanges [.fifo, .freeIx] s s.fifoPop := by
  intro f hf
  unfold State.fifoPop
  split <;> cases f <;> first | rfl | exact fun _ => rfl | exact absurd (by simp) hf

theorem State.afterDraw_frame (s : State) : OnlyChanges [.draws, .freeIx] s s.afterDraw := by
  intro f hf
  unfold State.afterDraw
  split <;> cases f <;> first | rfl | exact fun _ => rfl | exact absurd (by simp) hf

/-- The wait's passing of time touches `now` alone (10_state.md R36). -/
theorem State.passTime_frame (s : State) (until_ : Nat) : OnlyChanges [.now, .freeIx] s (s.passTime until_) := by
  intro f hf
  unfold State.passTime
  split <;> cases f <;> first | rfl | exact fun _ => rfl | exact absurd (by simp) hf

/-- The converter touches the FIFO and the pending bits (41_adc_controller.md R92). -/
theorem State.convert_frame (s : State) (k : Chan) (x : Sample) : OnlyChanges [.fifo, .pend] s (s.convert k x) := by
  intro f hf
  unfold State.convert
  split <;> cases f <;> first | rfl | exact fun _ => rfl | exact absurd (by simp) hf

/-- A replaced auto-mode state touches that channel's alone. -/
theorem State.setAuto_frame (s : State) (c : Chan) (a : AutoState) :
    OnlyChanges [.loopCounter, .loopLimit, .offset, .offsetDelta, .offsetLimit, .tLoopRand, .tOffRand, .ratePend] s
      (s.setAuto c a) := by
  intro f hf
  cases f <;> first | rfl | exact absurd (by simp) hf

/-- A byte write of the window touches the registers' backing state alone: never the FIFO, the latch or the block's own
registers (20_memory.md R44). -/
theorem winWrite_frame (s : State) (r : WinReg) (i : Nat) (v : Byte) :
    OnlyChanges [.clkReq, .adcEn, .wpOff, .clkDiv, .stepEn, .pend, .stepMode, .stepAvg, .stepInSel, .stepDelay] s
      { s with adc := winWrite s.adc r i v } := by
  intro f hf
  cases f <;> first
    | rfl
    | exact fun _ => rfl
    | exact winWrite_clkOn _ _ _ _
    | exact winWrite_fifo _ _ _ _
    | exact absurd (by simp) hf

end Sys2Proof.Machine
end

