-- ==== Sys2Proof/Laws/Inputs.lean ====
section
/-! SUPPORT. The free inputs: the random source's answers and the passing of time. -/

namespace Sys2Proof.Machine

/-- An answer is brought into its range (10_state.md R35). -/
theorem inRange_bounds {lo hi : Nat} (h : lo ≤ hi) (v : Nat) : lo ≤ inRange lo hi v ∧ inRange lo hi v ≤ hi := by
  unfold inRange
  split
  · assumption
  · have := Nat.mod_lt v (show 0 < hi - lo + 1 by omega)
    omega

/-- An answer already in its range stands as it is. -/
theorem inRange_of_mem {lo hi v : Nat} (h : lo ≤ v ∧ v ≤ hi) : inRange lo hi v = v := if_pos h

@[simp] theorem State.afterDraw_params (s : State) : s.afterDraw.params = s.params := by
  unfold State.afterDraw; split <;> rfl
@[simp] theorem State.afterDraw_filt (s : State) : s.afterDraw.filt = s.filt := by
  unfold State.afterDraw; split <;> rfl
@[simp] theorem State.afterDraw_rateChan (s : State) : s.afterDraw.rateChan = s.rateChan := by
  unfold State.afterDraw; split <;> rfl
@[simp] theorem State.afterDraw_auto (s : State) : s.afterDraw.auto = s.auto := by
  unfold State.afterDraw; split <;> rfl
@[simp] theorem State.afterDraw_now (s : State) : s.afterDraw.env.now = s.env.now := by
  unfold State.afterDraw; split <;> rfl

/-- A time inside the 64-bit input's range is itself; past it, the last instant (10_state.md R36). -/
theorem timeOf_toNat (t : Nat) : (timeOf t).toNat = min t (2 ^ 64 - 1) := by
  simp only [timeOf, BitVec.toNat_ofNat]
  omega

/-- Everything the wait's passing of time does to `now`: it reaches the instant when that is inside the input's range,
and it never goes back. -/
theorem State.passTime_now (s : State) (until_ : Nat) : s.env.now.toNat ≤ (s.passTime until_).env.now.toNat ∧
    (until_ < 2 ^ 64 → until_ ≤ (s.passTime until_).env.now.toNat) := by
  have := s.env.now.isLt
  unfold State.passTime
  split
  · exact ⟨le_refl _, fun _ => by assumption⟩
  · simp only [State.nextFree_env, timeOf_toNat]
    omega

/-- The end of a wait: either it is over, at an instant that is reached, or nothing but time has passed (and then the
instant lies past the input's range). -/
theorem State.endWait_cases (s : State) (t0 : Time) (delay : Nat) :
    (t0.toNat + delay ≤ (s.passTime (t0.toNat + delay)).env.now.toNat ∧
      s.endWait t0 delay = State.complete { s.passTime (t0.toNat + delay) with run := .running }) ∨
    (2 ^ 64 ≤ t0.toNat + delay ∧ s.endWait t0 delay = s.passTime (t0.toNat + delay)) := by
  unfold State.endWait
  by_cases h : t0.toNat + delay ≤ (s.passTime (t0.toNat + delay)).env.now.toNat
  · exact .inl ⟨h, by simp only [h, if_true]⟩
  · refine .inr ⟨?_, by simp only [h, if_false]⟩
    by_contra hlt
    exact h ((s.passTime_now _).2 (by omega))

end Sys2Proof.Machine
end

