-- ==== Sys2Proof/Laws/AutoMode.lean ====
section
/-! SUPPORT. The auto-mode engine: bounds of the table and the ranges, and each step of the per-channel state machine
keeps the channel's invariant. -/

namespace Sys2Proof.Machine

/-- Every entry's magnitude from some place on lies between 1 and a bound of the whole list. -/
theorem speedLookup_bounds {l : List (Nat × Nat)} {x m : Nat} (hlast : l.getLast?.map Prod.fst = some 4096)
    (hx : x < 4096) (hb : ∀ e ∈ l, 1 ≤ e.2 ∧ e.2 ≤ m) : 1 ≤ speedLookup l x ∧ speedLookup l x ≤ m := by
  induction l with
  | nil => simp at hlast
  | cons e l ih =>
    obtain ⟨bound, mag⟩ := e
    simp only [speedLookup]
    split
    · exact hb (bound, mag) (by simp)
    · cases l with
      | nil => simp at hlast; omega
      | cons e' l' => exact ih (by simpa using hlast) fun e he => hb e (by simp [he])

/-- `LoopMax` is the first entry's magnitude, and no entry's is larger (43_auto_mode.md R124). -/
theorem le_loopMax {p : Params} (h : p.SpeedLegal) : ∀ e ∈ p.speedTable, 1 ≤ e.2 ∧ e.2 ≤ loopMax p := by
  obtain ⟨hlast, hp, h1⟩ := h
  unfold loopMax speedTable
  generalize p.speedTable = l at *
  cases l with
  | nil => simp at hlast
  | cons e l =>
    have h0 : speedLookup (e :: l) 0 = e.2 := if_pos (h1 e (by simp)).1
    intro e' he'
    rw [h0]
    refine ⟨(h1 e' he').2.1, ?_⟩
    rcases List.mem_cons.1 he' with rfl | hm
    · exact le_refl _
    · exact (List.rel_of_pairwise_cons hp hm).2

theorem loopMax_lt {p : Params} (h : p.SpeedLegal) : loopMax p < 2 ^ 32 := by
  obtain ⟨hlast, _, h1⟩ := h
  unfold loopMax speedTable
  generalize p.speedTable = l at *
  cases l with
  | nil => simp at hlast
  | cons e l =>
    have h0 : speedLookup (e :: l) 0 = e.2 := if_pos (h1 e (by simp)).1
    rw [h0]
    exact (h1 e (by simp)).2.2

/-- The magnitude the rate channel asks for is a magnitude of the table. -/
theorem State.rateMagnitude_bounds {s : State} (h : s.params.SpeedLegal) :
    1 ≤ s.rateMagnitude ∧ s.rateMagnitude ≤ loopMax s.params :=
  speedLookup_bounds h.1 (s.filt.get s.rateChan).isLt (le_loopMax h)

theorem clampOffset_bounds (v : Int) (l : Nat) : -(l : Int) ≤ clampOffset v l ∧ clampOffset v l ≤ l := by
  unfold clampOffset
  omega

/-- A clamped offset fits the 16-bit signed register. -/
theorem clampOffset_toInt (v : Int) {l : Nat} (h : l ≤ 32767) :
    (BitVec.ofInt 16 (clampOffset v l)).toInt = clampOffset v l := by
  have := clampOffset_bounds v l
  rw [BitVec.toInt_ofInt, Int.bmod_eq_of_le] <;> omega

/-- The direction reversed: no wrap but at the most negative number, which no legal step is. -/
theorem neg_toInt {a : BitVec 16} (h : -32767 ≤ a.toInt) : (-a).toInt = -a.toInt := by
  have := a.toInt_lt
  have := a.le_toInt
  rw [BitVec.toInt_neg, Int.bmod_eq_of_le] <;> simp at * <;> omega

/-! Each step keeps the channel's invariant (10_state.md R21). -/

theorem AutoState.takeRate_bounded {p : Params} {a : AutoState} {mag : Nat} (h : a.Bounded p) (h1 : 1 ≤ mag)
    (h2 : mag ≤ loopMax p) (h3 : loopMax p < 2 ^ 32) : (a.takeRate mag).Bounded p := by
  unfold AutoState.takeRate
  split
  · obtain ⟨ho, hd, hl, _, hc⟩ := h
    refine ⟨ho, hd, hl, ?_, hc⟩
    simp only [BitVec.toNat_ofNat]
    omega
  · exact h

theorem AutoState.count_bounded {p : Params} {a : AutoState} (hp : p.EngineLegal) (h : a.Bounded p) :
    a.count.Bounded p := by
  obtain ⟨ho, hd, hl, hlim, hc⟩ := h
  have hmax := hp.2.2.2.1
  unfold AutoState.count
  split
  · refine ⟨?_, hd, hl, hlim, by simp⟩
    simp only
    rw [clampOffset_toInt _ (by omega)]
    exact clampOffset_bounds _ _
  · refine ⟨ho, hd, hl, hlim, ?_⟩
    simp
    omega

theorem AutoState.flip_bounded {p : Params} {a : AutoState} (hp : p.EngineLegal) (h : a.Bounded p) :
    a.flip.Bounded p := by
  obtain ⟨ho, hd, hl, hlim, hc⟩ := h
  have hstep := hp.2.1
  refine ⟨ho, ?_, hl, hlim, hc⟩
  simp only [AutoState.flip]
  rw [neg_toInt (by omega)]
  omega

theorem AutoState.limitOffset_bounded {p : Params} {a : AutoState} (hp : p.EngineLegal) (h : a.Bounded p) (f : Sample)
    {d : Nat} (hd : d ≤ p.offsetLimitMax) : (a.limitOffset p f d).Bounded p := by
  obtain ⟨_, hdelta, _, hlim, hc⟩ := h
  have hmax := hp.2.2.2.1
  have hmin : min d (intCap p f.toNat) ≤ d := Nat.min_le_left _ _
  have e : (BitVec.ofNat 16 (min d (intCap p f.toNat))).toNat = min d (intCap p f.toNat) := by
    rw [BitVec.toNat_ofNat, Nat.mod_eq_of_lt (by omega)]
  refine ⟨?_, hdelta, ?_, hlim, hc⟩
  · simp only [AutoState.limitOffset, e]
    rw [clampOffset_toInt _ (by omega)]
    exact clampOffset_bounds _ _
  · simp only [AutoState.limitOffset, e]
    omega

/-- A channel's state replaced by one that has the invariant. -/
theorem EngineInv.setAuto {s : State} {c : Chan} {a : AutoState} (h : EngineInv s) (ha : a.Bounded s.params) :
    EngineInv (s.setAuto c a) := by
  refine ⟨h.1, fun d => ?_⟩
  simp only [State.setAuto_auto, Quad.get_set]
  split
  · exact ha
  · exact h.2 d

theorem EngineInv.afterDraw {s : State} (h : EngineInv s) : EngineInv s.afterDraw := by
  unfold State.afterDraw
  split <;> exact h

/-- The advanced state of an active engine before the boundary test. -/
theorem State.advancedAuto_bounded {s : State} (h : EngineInv s) (c : Chan) : (s.advancedAuto c).Bounded s.params := by
  have hr := State.rateMagnitude_bounds h.1.2.2.1
  have hlt := loopMax_lt h.1.2.2.1
  exact AutoState.count_bounded h.1.2.2.2.1 (AutoState.takeRate_bounded (h.2 c) hr.1 hr.2 hlt)

/-! The steps of an advance, in the words of the statements (Safety.lean). -/

/-- What step 1 leaves. -/
theorem AutoState.takeRate_fields (a : AutoState) (mag : Nat) :
    (a.takeRate mag).loopCounter = a.loopCounter ∧ (a.takeRate mag).offset = a.offset ∧
      (a.takeRate mag).offsetDelta = a.offsetDelta ∧ (a.takeRate mag).offsetLimit = a.offsetLimit ∧
      (a.takeRate mag).tOffRand = a.tOffRand ∧ (a.takeRate mag).tLoopRand = a.tLoopRand ∧
      (a.takeRate mag).ratePend = false := by
  unfold AutoState.takeRate
  split <;> simp_all

/-- What step 2 leaves. -/
theorem AutoState.count_fields (a : AutoState) :
    a.count.loopLimit = a.loopLimit ∧ a.count.offsetDelta = a.offsetDelta ∧ a.count.offsetLimit = a.offsetLimit ∧
      a.count.tOffRand = a.tOffRand ∧ a.count.tLoopRand = a.tLoopRand ∧ a.count.ratePend = a.ratePend := by
  unfold AutoState.count
  split <;> exact ⟨rfl, rfl, rfl, rfl, rfl, rfl⟩

/-- What step 2 computes, over the integers. -/
theorem AutoState.count_values {p : Params} {a : AutoState} (hp : p.EngineLegal) (h : a.Bounded p) :
    (a.count.loopCounter.toNat = if a.loopLimit.toNat ≤ a.loopCounter.toNat + 1 then 0 else a.loopCounter.toNat + 1) ∧
      a.count.offset.toInt =
        if a.loopLimit.toNat ≤ a.loopCounter.toNat + 1 then
          clampOffset (a.offset.toInt + a.offsetDelta.toInt) a.offsetLimit.toNat
        else a.offset.toInt := by
  obtain ⟨_, _, hl, _⟩ := h
  have hmax := hp.2.2.2.1
  unfold AutoState.count
  split
  · exact ⟨rfl, clampOffset_toInt _ (by omega)⟩
  · refine ⟨?_, rfl⟩
    simp
    omega

/-- The loop limit after step 1 is `stepLimit`. -/
theorem State.takeRate_loopLimit {s : State} (h : s.params.SpeedLegal) (c : Chan) :
    ((s.auto.get c).takeRate s.rateMagnitude).loopLimit.toNat = s.stepLimit c := by
  have hr := State.rateMagnitude_bounds h
  have hlt := loopMax_lt h
  unfold AutoState.takeRate State.stepLimit
  split
  · exact Nat.mod_eq_of_lt (by omega)
  · rfl

/-- Steps 1 and 2 compute `stepLimit` and `stepOffset`; the direction, the offset's limit and the timestamps are kept. -/
theorem State.advancedAuto_spec {s : State} (h : EngineInv s) (c : Chan) :
    ((s.advancedAuto c).loopCounter.toNat =
        if s.stepLimit c ≤ (s.auto.get c).loopCounter.toNat + 1 then 0 else (s.auto.get c).loopCounter.toNat + 1) ∧
      (s.advancedAuto c).loopLimit.toNat = s.stepLimit c ∧ (s.advancedAuto c).offset.toInt = s.stepOffset c ∧
      (s.advancedAuto c).ratePend = false ∧ (s.advancedAuto c).offsetDelta = (s.auto.get c).offsetDelta ∧
      (s.advancedAuto c).offsetLimit = (s.auto.get c).offsetLimit ∧
      (s.advancedAuto c).tOffRand = (s.auto.get c).tOffRand ∧ (s.advancedAuto c).tLoopRand = (s.auto.get c).tLoopRand := by
  have hr := State.rateMagnitude_bounds h.1.2.2.1
  have hlt := loopMax_lt h.1.2.2.1
  have hb := AutoState.takeRate_bounded (h.2 c) hr.1 hr.2 hlt
  obtain ⟨k1, k2, k3, k4, k5, k6, k7⟩ := AutoState.takeRate_fields (s.auto.get c) s.rateMagnitude
  obtain ⟨f1, f2, f3, f4, f5, f6⟩ := AutoState.count_fields ((s.auto.get c).takeRate s.rateMagnitude)
  obtain ⟨v1, v2⟩ := AutoState.count_values h.1.2.2.2.1 hb
  rw [State.takeRate_loopLimit h.1.2.2.1, k1] at v1 v2
  unfold State.advancedAuto
  refine ⟨v1, by rw [f1, State.takeRate_loopLimit h.1.2.2.1], ?_, by rw [f6, k7], by rw [f2, k3], by rw [f3, k4],
    by rw [f4, k5], by rw [f5, k6]⟩
  rw [v2, k2, k3, k4]
  rfl

/-- Step 3's test is `StepHits`. -/
theorem State.advancedAuto_hits {s : State} (h : EngineInv s) (c : Chan) :
    (s.advancedAuto c).boundaryHit (s.filt.get c) = true ↔ s.StepHits c := by
  obtain ⟨-, -, ho, -, hd, hl, -⟩ := State.advancedAuto_spec h c
  simp [AutoState.boundaryHit, AutoState.biased, State.StepHits, above, below, ho, hd, hl, Config.onT, Config.offT]

end Sys2Proof.Machine
end

