-- ==== Sys2Proof/Laws/Decode.lean ====
section
/-! SUPPORT. The fields of a word written as the concatenation of a format's fields, and the decoder at each opcode that
has operands wider than a channel (30_encoding.md R60). -/

namespace Sys2Proof

/-- The low field of two. -/
theorem extract_low {a c : Nat} (x : BitVec a) (z : BitVec c) : (x ++ z).extractLsb' 0 c = z :=
  BitVec.extractLsb'_append_eq_right

/-- The middle field of three. -/
theorem extract_middle {a b c : Nat} (x : BitVec a) (y : BitVec b) (z : BitVec c) :
    (x ++ y ++ z).extractLsb' c b = y := by
  rw [BitVec.extractLsb'_append_eq_of_le (le_refl c), Nat.sub_self]
  exact BitVec.extractLsb'_append_eq_right

/-- The high field of three. -/
theorem extract_high {a b c : Nat} (x : BitVec a) (y : BitVec b) (z : BitVec c) :
    (x ++ y ++ z).extractLsb' (b + c) a = x := by
  rw [BitVec.extractLsb'_append_eq_of_le (by omega), Nat.add_sub_cancel]
  exact BitVec.extractLsb'_append_eq_left

/-- The high field of four. -/
theorem extract_high_of_four {a b c d : Nat} (x : BitVec a) (y : BitVec b) (z : BitVec c) (u : BitVec d) :
    (x ++ y ++ z ++ u).extractLsb' (b + c + d) a = x := by
  rw [BitVec.extractLsb'_append_eq_of_le (by omega), Nat.add_sub_cancel]
  exact extract_high _ _ _

/-- The second field of four. -/
theorem extract_second_of_four {a b c d : Nat} (x : BitVec a) (y : BitVec b) (z : BitVec c) (u : BitVec d) :
    (x ++ y ++ z ++ u).extractLsb' (c + d) b = y := by
  rw [BitVec.extractLsb'_append_eq_of_le (by omega), Nat.add_sub_cancel]
  exact extract_middle _ _ _

/-- The channel field holds the channel. -/
@[simp] theorem chBits_toFin (c : Chan) : (chBits c).toFin = c := rfl

/-! The decoder at an opcode. -/

theorem decode_rdb {w : Word} (h : opcOf w = 0x11#8) : decode w = whenZero (w.extractLsb' 0 8) (.rdb (off16Of w)) := by
  unfold decode; rw [h]; rfl
theorem decode_wrb {w : Word} (h : opcOf w = 0x12#8) : decode w = .ok (.wrb (off16Of w) (val8Of w)) := by
  unfold decode; rw [h]; rfl
theorem decode_adctrig {w : Word} (h : opcOf w = 0x22#8) :
    decode w = whenZero (w.extractLsb' 4 20) (.adctrig (mask4Of w)) := by
  unfold decode; rw [h]; rfl
theorem decode_meduI {w : Word} (h : opcOf w = 0x31#8) :
    decode w = whenZero (w.extractLsb' 12 10) (.meduI (chOf w) (imm12Of w)) := by
  unfold decode; rw [h]; rfl
theorem decode_dcrvI {w : Word} (h : opcOf w = 0x51#8) :
    decode w = whenZero (w.extractLsb' 16 6) (.dcrvI (chOf w) (imm16Of w)) := by
  unfold decode; rw [h]; rfl
theorem decode_jmp {w : Word} (h : opcOf w = 0x61#8) : decode w = decodeJ w .jmp := by
  unfold decode; rw [h]; rfl
theorem decode_bstop {w : Word} (h : opcOf w = 0x62#8) : decode w = decodeJ w .bstop := by
  unfold decode; rw [h]; rfl

/-- What the must-be-zero check accepts (30_encoding.md R68). -/
theorem whenZero_eq_ok {n : Nat} {z : BitVec n} {i j : Instr} : whenZero z i = .ok j ↔ z = 0#n ∧ i = j := by
  unfold whenZero
  split <;> simp [*]

end Sys2Proof
end

