-- ==== Sys2Proof/Laws/Fifo.lean ====
section
/-! SUPPORT. The FIFO: the fields of a packed word, and what the pop does. -/

namespace Sys2Proof.Machine

/-- Two fields side by side, read at the upper one's place. -/
theorem or_shift_high {a b x y w : Nat} (hx : x < 2 ^ w) (hab : a + w ≤ b) :
    (y <<< b ||| x <<< a) >>> b = y := by
  apply Nat.eq_of_testBit_eq
  intro i
  have : (x.testBit (b + i - a)) = false := Nat.testBit_lt_two_pow (lt_of_lt_of_le hx (Nat.pow_le_pow_right (by omega) (by omega)))
  simp [Nat.testBit_shiftRight, Nat.testBit_or, Nat.testBit_shiftLeft, this]

/-- Two fields side by side, read at the lower one's place, up to the upper. -/
theorem or_shift_low {a b x y w n : Nat} (hx : x < 2 ^ w) (hw : w ≤ n) (hab : a + n ≤ b) :
    ((y <<< b ||| x <<< a) >>> a) % 2 ^ n = x := by
  apply Nat.eq_of_testBit_eq
  intro i
  by_cases hi : i < n
  · simp [Nat.testBit_mod_two_pow, Nat.testBit_shiftRight, Nat.testBit_or, Nat.testBit_shiftLeft, hi]
    intro h
    omega
  · have : x.testBit i = false :=
      Nat.testBit_lt_two_pow (lt_of_lt_of_le hx (Nat.pow_le_pow_right (by omega) (by omega)))
    simp [Nat.testBit_mod_two_pow, hi, this]

/-- A packed word's number is the two fields at their places: nothing is cut off (30_encoding.md R65). -/
theorem fifoPack_toNat {p : Params} (h : p.FifoLegal) (k : Chan) (x : Sample) :
    (fifoPack p k x).toNat = k.val <<< p.tagLo ||| x.toNat <<< p.dataLo := by
  obtain ⟨_, _, h2, h3, h4, _⟩ := h
  have hk : k.val <<< p.tagLo < 2 ^ 32 := by
    rw [Nat.shiftLeft_eq]
    calc k.val * 2 ^ p.tagLo < 2 ^ 2 * 2 ^ p.tagLo := Nat.mul_lt_mul_of_pos_right k.isLt (Nat.two_pow_pos _)
      _ = 2 ^ (2 + p.tagLo) := (Nat.pow_add _ _ _).symm
      _ ≤ 2 ^ 32 := Nat.pow_le_pow_right (by omega) (by omega)
  have hx : x.toNat <<< p.dataLo < 2 ^ 32 := by
    rw [Nat.shiftLeft_eq]
    calc x.toNat * 2 ^ p.dataLo < 2 ^ 12 * 2 ^ p.dataLo := Nat.mul_lt_mul_of_pos_right x.isLt (Nat.two_pow_pos _)
      _ = 2 ^ (12 + p.dataLo) := (Nat.pow_add _ _ _).symm
      _ ≤ 2 ^ 32 := Nat.pow_le_pow_right (by omega) (by omega)
  unfold fifoPack
  rw [BitVec.toNat_ofNat, Nat.mod_eq_of_lt (Nat.or_lt_two_pow hk hx)]

/-- The tag of a packed word is its channel (41_adc_controller.md R92). -/
theorem fifoTag_fifoPack {p : Params} (h : p.FifoLegal) (k : Chan) (x : Sample) :
    fifoTag p (fifoPack p k x) = k.val := by
  have hk : k.val < 2 ^ 2 := k.isLt
  have hw : (2 : Nat) ^ 2 ≤ 2 ^ p.tagW := Nat.pow_le_pow_right (by omega) h.2.2.1
  unfold fifoTag
  rw [fifoPack_toNat h]
  rcases h.2.2.2.2.2 with hlow | hhigh
  · rw [or_shift_high x.isLt hlow, Nat.mod_eq_of_lt (by omega)]
  · rw [Nat.lor_comm, or_shift_low hk h.2.2.1 hhigh]

/-- The sample of a packed word is the one packed (41_adc_controller.md R92). -/
theorem fifoSample_fifoPack {p : Params} (h : p.FifoLegal) (k : Chan) (x : Sample) :
    fifoSample p (fifoPack p k x) = x := by
  have hk : k.val < 2 ^ 2 := k.isLt
  have hw : (2 : Nat) ^ 2 ≤ 2 ^ p.tagW := Nat.pow_le_pow_right (by omega) h.2.2.1
  apply BitVec.eq_of_toNat_eq
  unfold fifoSample
  rw [fifoPack_toNat h, BitVec.toNat_ofNat]
  rcases h.2.2.2.2.2 with hlow | hhigh
  · exact or_shift_low x.isLt (le_refl 12) hlow
  · rw [Nat.lor_comm, or_shift_high (w := p.tagW) (by omega) hhigh]
    exact Nat.mod_eq_of_lt x.isLt

/-- The pop takes the head off; an empty FIFO stays empty (20_memory.md R45). -/
@[simp] theorem State.fifoPop_fifo (s : State) : s.fifoPop.adc.fifo = s.adc.fifo.tail := by
  unfold State.fifoPop
  split
  · next h => simp [h]
  · next h => simp [h]

theorem State.fifoPop_cons {s : State} {w : Word} {rest : List Word} (h : s.adc.fifo = w :: rest) :
    s.fifoPop = { s with adc.fifo := rest } ∧ s.fifoHead = w := by
  simp [State.fifoPop, State.fifoHead, h]

theorem State.fifoPop_nil {s : State} (h : s.adc.fifo = []) : s.fifoPop = s.nextFree := by simp [State.fifoPop, h]

/-- The count byte is the number of words while that fits a byte (10_state.md R18, `FIFO_DEPTH` ≤ 255). -/
theorem AdcSide.count_toNat {a : AdcSide} (h : a.fifo.length ≤ 255) : a.count.toNat = a.fifo.length := by
  simp [AdcSide.count]
  omega

end Sys2Proof.Machine
end

