-- ==== Sys2Proof/Laws/Memory.lean ====
section
/-! SUPPORT. Every operation over the memories keeps their canonical form, `Memory.wf`. -/

namespace Sys2Proof.Machine

/-- The canonical form, as a proposition. -/
theorem Memory.wf_iff (s : State) : Memory.wf s = true ↔
    (s.windowSized = true → ∀ c : Chan, (s.win.get c).length = s.cfg.n.toNat ∧ (s.wptr.get c).toNat < s.cfg.n.toNat) ∧
      s.adc.fifo.length ≤ s.params.fifoDepth ∧ s.prog.length ≤ 65536 := by
  simp only [Memory.wf, Bool.and_eq_true, decide_eq_true_eq, and_assoc]

/-- The form looks at the window memory, the FIFO, the program and what sizes them; nothing else. -/
theorem Memory.wf_congr {s t : State} (hn : t.cfg.n = s.cfg.n) (hw : t.win = s.win) (hp : t.wptr = s.wptr)
    (hf : t.adc.fifo = s.adc.fifo) (hd : t.params.fifoDepth = s.params.fifoDepth) (hg : t.prog = s.prog) :
    Memory.wf t = Memory.wf s := by
  simp [Memory.wf, State.windowSized, hn, hw, hp, hf, hd, hg]

/-- The form of the machine right after reset. -/
theorem Memory.wf_reset : Memory.wf State.reset = true := by decide

/-- Entering a sample keeps it: a slot is overwritten and the pointer stays inside the window (42_median_filter.md R111).
Where the window's size is unspecified nothing is asked of it. -/
theorem Memory.wf_pushSample {s : State} (h : Memory.wf s = true) (c : Chan) (x : Sample) :
    Memory.wf (s.pushSample c x) = true := by
  rw [Memory.wf_iff] at h ⊢
  refine ⟨fun hs d => ?_, h.2⟩
  have hs' : s.windowSized = true := hs
  have hn : 1 ≤ s.cfg.n.toNat ∧ s.cfg.n.toNat ≤ 65535 := by simpa [State.windowSized] using hs'
  simp only [State.pushSample_win, State.pushSample_wptr, State.pushSample_cfg, Quad.get_set]
  have hd := h.1 hs' d
  have hc := h.1 hs' c
  have hm := Nat.mod_lt ((s.wptr.get c).toNat + 1) (show 0 < s.cfg.n.toNat by omega)
  split
  · refine ⟨by simpa using hc.1, ?_⟩
    rw [BitVec.toNat_ofNat, Nat.mod_eq_of_lt (by omega)]
    exact hm
  · exact hd

/-- The pop of the 32-bit read keeps it (20_memory.md R45). -/
theorem Memory.wf_fifoPop {s : State} (h : Memory.wf s = true) : Memory.wf s.fifoPop = true := by
  rw [Memory.wf_iff] at h ⊢
  have e : s.fifoPop.cfg = s.cfg ∧ s.fifoPop.win = s.win ∧ s.fifoPop.wptr = s.wptr ∧ s.fifoPop.params = s.params ∧
      s.fifoPop.prog = s.prog := by
    unfold State.fifoPop
    split <;> exact ⟨rfl, rfl, rfl, rfl, rfl⟩
  obtain ⟨e1, e2, e3, e4, e5⟩ := e
  rw [State.windowSized, e1, e2, e3, e4, e5, State.fifoPop_fifo, List.length_tail]
  exact ⟨h.1, by omega, h.2.2⟩

/-- A byte write of the window keeps it: it never touches the FIFO (20_memory.md R44). -/
theorem Memory.wf_memWrite {s t : State} (h : Memory.wf s = true) {off : Nat} {v : Byte}
    (hw : s.memWrite off v = .ok t) : Memory.wf t = true := by
  rcases memWrite_cases s off v with he | ⟨r, i, _, he⟩
  · rw [he] at hw; simp at hw
  · rw [he] at hw
    obtain rfl : _ = t := by simpa using hw
    rw [← h]
    exact Memory.wf_congr rfl rfl rfl (winWrite_fifo _ _ _ _) rfl rfl

/-- The converter keeps it: it is enabled only while the FIFO has room (41_adc_controller.md R92). -/
theorem Memory.wf_convert {s : State} (h : Memory.wf s = true) (k : Chan) (x : Sample) :
    Memory.wf (s.convert k x) = true := by
  unfold State.convert
  split
  · next he =>
    have hr : s.adc.fifo.length < s.params.fifoDepth := by
      simp only [State.convEnabled, Bool.and_eq_true, decide_eq_true_eq] at he
      exact he.2
    rw [Memory.wf_iff] at h ⊢
    exact ⟨h.1, by simpa using hr, h.2.2⟩
  · exact h

/-- Storing a word where the next step fetches keeps it while `pc` is inside the largest program (20_memory.md R41). -/
theorem Memory.wf_withFetchWord {s : State} (h : Memory.wf s = true) (hpc : s.pc < 65536) (nbits w : Nat) :
    Memory.wf (s.withFetchWord nbits w) = true := by
  rw [Memory.wf_iff] at h ⊢
  refine ⟨h.1, h.2.1, ?_⟩
  simp only [State.withFetchWord, progWith, List.length_set, List.length_append, List.length_replicate]
  omega

end Sys2Proof.Machine
end

