-- ==== Sys2Proof/Laws/PerInstr.lean ====
section
/-! SUPPORT. Statements for all instructions, one lemma per constructor. -/

namespace Sys2Proof.Laws.OperandsFit

/-- The instruction, written as a source line, passes every check of WellFormed: its mnemonic is known, its operands are
as many as its format's fields and each lies inside its field (30_encoding.md R60, R61, R70). -/
def Statement (i : Instr) : Prop := i.wellFormed = true

/-- A line passes when its mnemonic's row asks for fields its operands fit. -/
theorem wellFormed_of_find {i : Instr} {m : String} {ks : List OperandKind}
    (h : operandKinds.find? (fun row => row.1 == i.mnemonic) = some (m, ks))
    (ho : operandsFit [] ks (i.operands.map .num) = true) : i.wellFormed = true := by
  simp only [Instr.wellFormed, Instr.sourceLine, SourceLine.wellFormed, h, ho]

theorem fits_num {k : OperandKind} {n : Nat} (h : n < k.bound) : (Operand.num n).fits [] k = true := decide_eq_true h

theorem fit_one {k : OperandKind} {n : Nat} (h : n < k.bound) : operandsFit [] [k] [.num n] = true := by
  simp [operandsFit, fits_num h]

theorem fit_two {k l : OperandKind} {n m : Nat} (h : n < k.bound) (h' : m < l.bound) :
    operandsFit [] [k, l] [.num n, .num m] = true := by
  simp [operandsFit, fits_num h, fits_num h']

theorem openMap : Statement .openMap := wellFormed_of_find rfl rfl
theorem rdb (off : BitVec 16) : Statement (.rdb off) := wellFormed_of_find rfl (fit_one off.isLt)
theorem wrb (off : BitVec 16) (val : Byte) : Statement (.wrb off val) :=
  wellFormed_of_find rfl (fit_two off.isLt val.isLt)
theorem rdfifo : Statement .rdfifo := wellFormed_of_find rfl rfl
theorem closeMap : Statement .closeMap := wellFormed_of_find rfl rfl
theorem adcinit : Statement .adcinit := wellFormed_of_find rfl rfl
theorem adcdrain : Statement .adcdrain := wellFormed_of_find rfl rfl
theorem adctrig (mask : BitVec 4) : Statement (.adctrig mask) := wellFormed_of_find rfl (fit_one mask.isLt)
theorem adcsettle : Statement .adcsettle := wellFormed_of_find rfl rfl
theorem adcharv : Statement .adcharv := wellFormed_of_find rfl rfl
theorem adcstop : Statement .adcstop := wellFormed_of_find rfl rfl
theorem adcshut : Statement .adcshut := wellFormed_of_find rfl rfl
theorem meduR (ch : Chan) : Statement (.meduR ch) := wellFormed_of_find rfl (fit_one ch.isLt)
theorem meduI (ch : Chan) (imm : BitVec 12) : Statement (.meduI ch imm) :=
  wellFormed_of_find rfl (fit_two ch.isLt imm.isLt)
theorem modedet : Statement .modedet := wellFormed_of_find rfl rfl
theorem rateupd : Statement .rateupd := wellFormed_of_find rfl rfl
theorem autostep (ch : Chan) : Statement (.autostep ch) := wellFormed_of_find rfl (fit_one ch.isLt)
theorem chinit : Statement .chinit := wellFormed_of_find rfl rfl
theorem dcrvR (ch : Chan) : Statement (.dcrvR ch) := wellFormed_of_find rfl (fit_one ch.isLt)
theorem dcrvI (ch : Chan) (imm : BitVec 16) : Statement (.dcrvI ch imm) :=
  wellFormed_of_find rfl (fit_two ch.isLt imm.isLt)
theorem dnorm : Statement .dnorm := wellFormed_of_find rfl rfl
theorem pwmapply (ch : Chan) : Statement (.pwmapply ch) := wellFormed_of_find rfl (fit_one ch.isLt)
theorem pwmacq : Statement .pwmacq := wellFormed_of_find rfl rfl
theorem pwmrel : Statement .pwmrel := wellFormed_of_find rfl rfl
theorem cfgchk : Statement .cfgchk := wellFormed_of_find rfl rfl
theorem jmp (tgt : BitVec 16) : Statement (.jmp tgt) := wellFormed_of_find rfl (fit_one tgt.isLt)
theorem bstop (tgt : BitVec 16) : Statement (.bstop tgt) := wellFormed_of_find rfl (fit_one tgt.isLt)
theorem sleep : Statement .sleep := wellFormed_of_find rfl rfl
theorem dbgline : Statement .dbgline := wellFormed_of_find rfl rfl
theorem halt : Statement .halt := wellFormed_of_find rfl rfl

end Sys2Proof.Laws.OperandsFit
end

