-- ==== Sys2Proof/Tests/Slice0.lean ====
section
/-! SUPPORT. The model's own tests: ill-formed source lines refused, words written out from the spec's formats, the
spec's test vectors one step at a time (95_test_vectors.md; the id stands in the comment), and for each statement with
hypotheses a state and operands that meet them. -/

namespace Sys2Proof.Tests

open Sys2Proof Sys2Proof.Machine

/-! ## WellFormed: each check refuses an ill-formed term (30_encoding.md R60, R61, R70) -/

theorem test_wf_accepts : sourceWellFormed [.label "loop", .op "WRB" [.num 0xFFFF, .num 0xFF], .op "JMP" [.label "loop"]]
    = true := by decide
theorem test_wf_unknown_mnemonic : SourceLine.wellFormed [] (.op "ADD" []) = false := by decide
theorem test_wf_too_few_operands : SourceLine.wellFormed [] (.op "WRB" [.num 0]) = false := by decide
theorem test_wf_too_many_operands : SourceLine.wellFormed [] (.op "HALT" [.num 0]) = false := by decide
theorem test_wf_off16 : SourceLine.wellFormed [] (.op "RDB" [.num 0x10000]) = false := by decide
theorem test_wf_val8 : SourceLine.wellFormed [] (.op "WRB" [.num 0, .num 0x100]) = false := by decide
theorem test_wf_mask4 : SourceLine.wellFormed [] (.op "ADCTRIG" [.num 16]) = false := by decide
theorem test_wf_channel : SourceLine.wellFormed [] (.op "MEDU.R" [.num 4]) = false := by decide
theorem test_wf_imm12 : SourceLine.wellFormed [] (.op "MEDU.I" [.num 0, .num 4096]) = false := by decide
theorem test_wf_imm16 : SourceLine.wellFormed [] (.op "DCRV.I" [.num 0, .num 65536]) = false := by decide
theorem test_wf_tgt16 : SourceLine.wellFormed [] (.op "JMP" [.num 65536]) = false := by decide
theorem test_wf_label_not_a_target : SourceLine.wellFormed ["x"] (.op "RDB" [.label "x"]) = false := by decide
theorem test_wf_label_undefined : SourceLine.wellFormed ["x"] (.op "JMP" [.label "y"]) = false := by decide
theorem test_wf_label_twice : sourceWellFormed [.label "x", .label "x"] = false := by decide

/-! ## Decode: words written out from the formats, one for every operation (95_test_vectors.md 2.1, 45_sequencer.md
R151; those without an id from 30_encoding.md R60, R62) -/

theorem test_decode_register_interface :
    [0x10000000, 0x11003000, 0x12000C0F, 0x12FFFFFF, 0x13000000, 0x14000000].map decode =  -- E1 to E4
      [.ok .openMap, .ok (.rdb 0x30), .ok (.wrb 0x0C 0x0F), .ok (.wrb 0xFFFF 0xFF), .ok .rdfifo, .ok .closeMap] := by
  decide
theorem test_decode_adc_controller :
    [0x20000000, 0x21000000, 0x2200000F, 0x22000005, 0x23000000, 0x24000000, 0x25000000, 0x26000000].map decode =
      [.ok .adcinit, .ok .adcdrain, .ok (.adctrig 0xF), .ok (.adctrig 5), .ok .adcsettle, .ok .adcharv, .ok .adcstop,
        .ok .adcshut] := by decide  -- E5, E6
theorem test_decode_median_filter :
    [0x30C00000, 0x31400005, 0x31C00FFF].map decode = [.ok (.meduR 3), .ok (.meduI 1 5), .ok (.meduI 3 4095)] := by
  decide  -- E7 to E9
theorem test_decode_auto_mode :
    [0x40000000, 0x41000000, 0x42800000, 0x43000000].map decode =
      [.ok .modedet, .ok .rateupd, .ok (.autostep 2), .ok .chinit] := by decide  -- E10
theorem test_decode_duty_controller :
    [0x50800000, 0x514007D0, 0x51C0FFFF, 0x52000000, 0x53400000, 0x54000000, 0x55000000].map decode =
      [.ok (.dcrvR 2), .ok (.dcrvI 1 2000), .ok (.dcrvI 3 65535), .ok .dnorm, .ok (.pwmapply 1), .ok .pwmacq,
        .ok .pwmrel] := by decide  -- E11 to E13
theorem test_decode_sequencer :
    [0x60000000, 0x61000005, 0x62000021, 0x63000000, 0x64000000, 0x65000000].map decode =
      [.ok .cfgchk, .ok (.jmp 5), .ok (.bstop 33), .ok .sleep, .ok .dbgline, .ok .halt] := by decide  -- E14 to E16
theorem test_illegal_opcodes :
    [0x00000000, 0xFFFFFFFF, 0x66000000, 0x15000000].map decode = List.replicate 4 (.error .unassignedOpcode) := by decide
theorem test_illegal_must_be_zero :
    [0x10000001, 0x11003001, 0x22000010, 0x30200000, 0x31401000, 0x51010000, 0x61010005].map decode =
      List.replicate 7 (.error .mustBeZero) := by decide
theorem test_decode_table_word : decodeTableWord 32 0x31C00FFF = some (.meduI 3 4095) := by decide

/-! ## The assembler (30_encoding.md R70, R71) -/

theorem test_assemble_forward_label :
    assemble [.op "BSTOP" [.label "out"], .op "SLEEP" [], .label "out", .op "HALT" []] =
      some [0x62000002, 0x63000000, 0x65000000] := by decide
theorem test_assemble_iteration : assemble [.op "ITER" []] = some (progLoop.take 24) := by decide  -- 45_sequencer.md R151
theorem test_assemble_shutdown :
    assemble [.op "SHUTDOWN" [], .op "HALT" []] = some progExit := by decide

/-! ## States and answers -/

/-- The answer is a next state with the property. -/
def answers (r : Result) (p : State → Bool) : Bool :=
  match r with
  | .next t => p t
  | .fault _ => false
  | .refused _ => false

/-- The answer is a fault entry with the code and the information. -/
def entersFault (r : Result) (code : BitVec 8) (info : Word) : Bool :=
  answers r fun t => t.faultRegs.fault == code && t.faultRegs.faultInfo == info && decide (t.run = .halted)

/-- Right after reset, a window of one slot a channel, the mapping held. -/
def small : State := { State.reset with cfg.n := 1, win := .fill [0], mapped := true }

/-- `small` with the words in the FIFO. -/
def withFifo (ws : List Word) : State := { small with adc.fifo := ws }

/-- `small` inside an operation. -/
def inPhase (p : Phase) : State := { small with phase := p }

/-- `small` with raw samples of a whole batch. -/
def withRaw (raw : Quad Sample) : State := { small with raw := raw, rawValid := .fill true }

/-- `small` in auto-mode, channel 0 the rate channel. -/
def automatic (filt : Quad Sample) : State := { small with autoMode := true, rateChan := 0, filt := filt }

/-- `small` with the converter running and step 2 pending. -/
def converting (fifo : List Word) : State :=
  { small with adc := { small.adc with adcEn := true, clkOn := true, stepEn := 4, pend := ⟨false, false, true, false⟩,
                                       fifo := fifo } }

/-- `small`, the next turn given. -/
def atTurn (t : Turn) : State := { small with env.script := [t] }

/-! ## Vectors, one step each -/

theorem test_open_maps : answers (exec .openMap { small with mapped := false }) (fun t => t.mapped) = true := by
  decide  -- M1
theorem test_open_after_close :
    entersFault (exec .openMap { small with mapped := false, closed := true }) 5 0xFFFFFFFF = true := by decide  -- M4
theorem test_rdb_little_endian : ({ small with adc.clkDiv := 0x1234 } : State).memRead 0x09 = .ok ⟨0x12, 0xFF⟩ := by
  decide  -- M7
theorem test_rdb_split_fifo : entersFault (exec (.rdb 0x37) small) 6 0x37 = true := by decide  -- M8
theorem test_wrb_retriggers :
    answers (exec (.wrb 0x0C 0x03) { small with adc.stepEn := 0xF, adc.pend := ⟨false, true, true, false⟩ })
      (fun t => t.adc.stepEn == 3 && t.adc.pend == ⟨true, true, false, false⟩) = true := by decide  -- M17
theorem test_wrb_protected : answers (exec (.wrb 0x10 0x10) small) (fun t => t.adc == small.adc) = true := by
  decide  -- M13
theorem test_rdfifo_pops :
    answers (exec .rdfifo (withFifo [0x000107D0, 0x00030005]))
      (fun t => t.fdata == 0x000107D0 && t.adc.fifo == [0x00030005]) = true := by decide  -- M19
theorem test_close : answers (exec .closeMap small) (fun t => !t.mapped && t.closed) = true := by decide  -- M21
theorem test_close_unmapped : entersFault (exec .closeMap { small with mapped := false }) 5 0xFFFFFFFE = true := by
  decide  -- M23
theorem test_adcinit_config_before_access :
    entersFault (exec .adcinit { small with mapped := false, cfg.avg := 5 }) 1 2 = true := by decide  -- D6
theorem test_adcinit_times_out : entersFault (exec .adcinit (inPhase (.adcinitPoll 999))) 4 1000 = true := by decide  -- D2
theorem test_adcdrain_ends :
    answers (exec .adcdrain (inPhase (.drainCount 1)))
      (fun t => t.anomalies.stale && t.log == [.fifoStale 1] && t.pc == 1) = true := by decide  -- D8
theorem test_adctrig :
    answers (exec (.adctrig 5) { small with rawValid := .fill true })
      (fun t => t.rawValid == .fill false && t.adc.stepEn == 5 && t.adc.pend == ⟨true, false, true, false⟩) = true := by
  decide  -- D10
theorem test_adcsettle_starts :
    answers (exec .adcsettle { small with env.now := 500 }) (fun t => t.phase == .settling 500) = true := by decide  -- D11
theorem test_adcharv_bad_tag :
    answers (exec .adcharv { withFifo [0x00050123] with phase := .harvRead })
      (fun t => t.anomalies.badTag && t.log == [.badTag 0x00050123] && t.rawValid == .fill false) = true := by
  decide  -- D13
theorem test_adcharv_ignores_other_bits :
    answers (exec .adcharv { withFifo [0xFFF32ABC] with phase := .harvRead })
      (fun t => t.raw.c3 == 0xABC && t.rawValid == ⟨false, false, false, true⟩) = true := by decide  -- D13
theorem test_adcstop : answers (exec .adcstop (converting [])) (fun t => t.adc.pend == .fill false) = true := by
  decide  -- D14
theorem test_adcshut :
    answers (exec .adcshut (converting [])) (fun t => !t.adc.adcEn && t.adc.clkOn && t.mapped) = true := by decide  -- D15
theorem test_medur_missing :
    answers (exec (.meduR 2) small) (fun t => t.anomalies.missing && t.log == [.missing 2] && t.win == small.win)
      = true := by decide  -- 2.4
theorem test_medui_ramp :
    answers (exec (.meduI 0 60) { small with cfg.n := 5, win.c0 := [10, 20, 30, 40, 50] })
      (fun t => t.filt.c0 == 40 && t.win.c0 == [60, 20, 30, 40, 50] && t.wptr.c0 == 1) = true := by decide  -- F1
theorem test_medui_even :
    answers (exec (.meduI 0 4) { small with cfg.n := 2, win.c0 := [8, 6] })
      (fun t => t.filt.c0 == 4 && t.win.c0 == [4, 6]) = true := by decide  -- F6
theorem test_modedet_on :
    answers (exec .modedet (withRaw ⟨5, 4090, 4090, 4090⟩)) (fun t => t.autoMode && t.rateChan == 0) = true := by
  decide  -- A-M4
theorem test_modedet_edge :
    answers (exec .modedet (withRaw ⟨5, 4000, 4090, 4090⟩)) (fun t => !t.autoMode) = true := by decide  -- A-M6
theorem test_rateupd_takes :
    answers (exec .rateupd { automatic ⟨700, 0, 0, 0⟩ with speedMag := 64, speedValid := true })
      (fun t => t.speedMag == 32 && t.auto.map (·.ratePend) == ⟨false, true, true, true⟩) = true := by decide  -- 2.5
theorem test_rateupd_same :
    answers (exec .rateupd { automatic ⟨700, 0, 0, 0⟩ with speedMag := 32, speedValid := true })
      (fun t => t.auto == small.auto) = true := by decide  -- 2.5
theorem test_autostep_saturates :
    answers (exec (.autostep 1) { automatic ⟨0, 2000, 0, 0⟩ with
        env.now := 100, auto.c1 := ⟨2, 3, 996, 8, 1000, 100, 100, false⟩ })
      (fun t => t.auto.c1 == ⟨0, 3, 1000, -8, 1000, 100, 100, false⟩ && t.inten.c1 == 3000) = true := by decide  -- A2
theorem test_autostep_draws :
    answers (exec (.autostep 1) { automatic ⟨5, 15, 0, 0⟩ with
        env.now := 5000, env.draws := [0, 1000, 0, 64], auto.c1 := ⟨0, 1, 248, 8, 250, 0, 0, false⟩ })
      (fun t => t.auto.c1 == ⟨0, 64, 7, -8, 7, 5000, 5000, false⟩ && t.inten.c1 == 22 && t.env.draws == []) = true := by
  decide  -- A21
theorem test_chinit :
    answers (exec .chinit { small with env.draws := [40, 600, 16, 250, 64, 1000, 20, 999] })
      (fun t => t.auto.map (·.loopLimit) == ⟨40, 16, 64, 20⟩ && t.auto.map (·.offsetLimit) == ⟨600, 250, 1000, 999⟩)
      = true := by decide  -- 2.5
theorem test_dcrvr : answers (exec (.dcrvR 0) { small with inten.c0 := 3995 }) (fun t => t.duty.c0 == 998501) = true := by
  decide  -- 2.6
theorem test_dcrvi : answers (exec (.dcrvI 3 65535) small) (fun t => t.duty.c3 == 999000) = true := by decide  -- 2.6
theorem test_dnorm_scales :
    answers (exec .dnorm { small with duty := ⟨999000, 251000, 999000, 1000⟩ })
      (fun t => t.nduty == ⟨888000, 223111, 888000, 888⟩) = true := by decide  -- N4
theorem test_dnorm_equal_is_identity :
    answers (exec .dnorm { small with duty := ⟨999000, 999000, 1000, 1000⟩ })
      (fun t => t.nduty == ⟨999000, 999000, 1000, 1000⟩) = true := by decide  -- N2
theorem test_pwmapply_first :
    answers (exec (.pwmapply 0) { small with pwm.held := .fill true, nduty.c0 := 1000 })
      (fun t => t.pwm.period.c0 == 1000000 && t.pwm.duty.c0 == 1000 && t.pwm.writes == 1 && t.appliedValid.c0) = true := by
  decide  -- 2.6
theorem test_pwmapply_not_held : entersFault (exec (.pwmapply 1) small) 5 0x10001 = true := by decide  -- 2.6
theorem test_pwmacq_stops :
    answers (exec .pwmacq { small with env.pwmOk := ⟨true, true, false, true⟩ })
      (fun t => t.pwm.held == ⟨true, true, false, false⟩ && t.faultRegs.fault == 3 && t.faultRegs.faultInfo == 2)
      = true := by decide  -- 2.6
theorem test_pwmrel :
    answers (exec .pwmrel { small with pwm.held := .fill true, pwm.duty.c0 := 7 })
      (fun t => t.pwm.held == .fill false && t.pwm.duty.c0 == 7) = true := by decide  -- 2.6
theorem test_cfgchk_first_failing :
    entersFault (exec .cfgchk { small with cfg := ⟨false, 10, 0, 0, 3⟩ }) 1 1 = true := by decide  -- Q6
theorem test_cfgchk_passes : answers (exec .cfgchk { small with cfg.clkDiv := 65534 }) (fun t => t.pc == 1) = true := by
  decide  -- Q3
theorem test_jmp : answers (exec (.jmp 9) small) (fun t => t.pc == 9) = true := by decide  -- Q8
theorem test_bstop_taken :
    answers (exec (.bstop 33) { small with pc := 30, env.stopReq := true }) (fun t => t.pc == 33) = true := by
  decide  -- Q11
theorem test_sleep_zero :
    answers (exec .sleep { small with cfg.sleep := 0, env.now := 77 })
      (fun t => t.pc == 1 && t.env.now == 77 && decide (t.run = .running)) = true := by decide  -- Q12
theorem test_sleep_starts :
    answers (exec .sleep { small with env.now := 1000 })
      (fun t => t.phase == .sleeping 1000 && decide (t.run = .waiting)) = true := by decide  -- Q13
theorem test_dbgline_off : answers (exec .dbgline small) (fun t => t.debug == []) = true := by decide  -- Q14
theorem test_dbgline_on :
    answers (exec .dbgline { small with cfg.debug := true, nduty.c3 := 9 })
      (fun t => (t.debug).map (fun r => r.channels.c3.nduty) == [9]) = true := by decide  -- 45_sequencer.md R157
theorem test_halt : answers (exec .halt { small with pc := 6 }) (fun t => t.pc == 6 && decide (t.run = .halted)) = true := by
  decide  -- P1
theorem test_converter_pushes :
    answers (step { converting [] with env.script := [.conv 2 0x123] })
      (fun t => t.adc.fifo == [0x00020123] && t.adc.pend == .fill false) = true := by decide  -- 2.1, D8
theorem test_converter_disabled :
    answers (step { converting [] with adc.adcEn := false, env.script := [.conv 2 0x123] })
      (fun t => t.adc.fifo == []) = true := by decide  -- D17
theorem test_step_first_operation : answers (step State.reset) (fun t => t.pc == 1 && decide (t.run = .running)) = true := by
  decide  -- 45_sequencer.md R151
theorem test_step_pc_outside_program :
    answers (step { small with prog := [0x52000000], pc := 1 })
      (fun t => t.faultRegs == ⟨7, 1, 0xFFFF0001, 7⟩ && t.pc == 1) = true := by decide  -- Q9
theorem test_step_illegal_word : entersFault (step (small.withFetchWord 32 0x66000000)) 7 0x66000000 = true := by
  decide  -- 30_encoding.md R68
theorem test_step_fetch_word :
    answers (step (State.reset.withFetchWord 32 0x51C0FFFF)) (fun t => t.duty.c3 == 999000) = true := by decide
theorem test_fifo_fields :
    fifoTag .p0 0x00020123 = 2 ∧ fifoSample .p0 0x00020123 = 0x123 ∧ fifoPack .p0 3 4095 = 0x00030FFF := by decide  -- 2.1
theorem test_median_of_a_multiset :
    median 5 [10, 20, 30, 40, 50] = 30 ∧ median 5 [50, 30, 10, 40, 20] = 30 ∧ median 4 [5, 3, 9, 1] = 3 := by
  decide  -- S4, S5
theorem test_speed_table_edges :
    [0, 511, 512, 1023, 1024, 2047, 2048, 3071, 3072, 4095].map (speedTable .p0) =
      [64, 64, 32, 32, 16, 16, 8, 8, 4, 4] := by decide  -- 2.5
theorem test_draw_ranges :
    [64, 32, 16, 8, 4].map (loLoop .p0) = [16, 8, 4, 2, 1] ∧ loOff .p0 = 250 ∧
      [2000, 15, 11].map (intCap .p0) = [1000, 7, 5] := by decide  -- 2.5
theorem test_curve :
    [0, 3, 4, 10, 100, 2000, 3000, 3995, 3996, 65535].map (curve .p0) =
      [1000, 1000, 1001, 1006, 1625, 251000, 563500, 998501, 999000, 999000] := by decide  -- 2.6

/-! ## Witnesses: for each statement with hypotheses, a state and operands that meet them, clause by clause, at the
boundary values of the clauses -/

theorem witness_p0_legal : Params.p0.Legal := by decide

theorem witness_EncodeOfDecodeIsTheWord : decode 0x31C00FFF = .ok (.meduI 3 4095) := by decide
theorem witness_DecoderFollowsOpcodeMap : decode 0x65000000 = .ok .halt ∧
    (⟨"HALT", 0x65000000, 0xFFFFFFFF⟩ : OpcodeRow) ∈ opcodeTable ∧ (0x65000000 : Word) &&& 0xFFFFFFFF = 0x65000000 := by
  decide

theorem witness_StepRunsTheDecodedInstruction :
    small.nextTurn = .seq ∧ small.run ≠ .halted ∧ small.prog[small.pc]? = some 0x60000000 ∧
      decode 0x60000000 = .ok .cfgchk := by decide
theorem witness_IllegalFetch_end_of_program :
    let s : State := { small with pc := 37 }
    s.nextTurn = .seq ∧ s.run ≠ .halted ∧ s.prog.length ≤ s.pc := by decide
theorem witness_IllegalFetch_word :
    let s : State := { small with prog := [0x66000000] }
    s.nextTurn = .seq ∧ s.run ≠ .halted ∧ s.prog[s.pc]? = some 0x66000000 ∧
      ∀ r ∈ opcodeTable, (0x66000000 : Word) &&& r.mask ≠ r.bits := by decide
theorem witness_FaultEntryIsPrecise_pc : ({ small with pc := 65535 } : State).pc < 65536 := by decide
theorem witness_HaltedBlock :
    ({ small with run := .halted } : State).run = .halted ∧ ({ small with run := .halted } : State).nextTurn = .seq := by
  decide
theorem witness_HaltedBlock_other_agent :
    let s : State := { small with run := .halted, env.script := [.clkl] }
    s.run = .halted ∧ ∀ h, s.nextTurn ≠ .reset h := ⟨rfl, fun _ => nofun⟩

theorem witness_Converter_enabled :
    let s : State := { converting (List.replicate 63 0) with env.script := [.conv 2 4095] }
    s.nextTurn = .conv 2 4095 ∧ s.params.FifoLegal ∧ s.adc.adcEn = true ∧ s.adc.clkOn = true ∧
      s.adc.stepEn.getLsbD 2 = true ∧ s.adc.pend.get 2 = true ∧ s.adc.stepMode.get 2 = 0 ∧
      s.adc.fifo.length < s.params.fifoDepth := by decide
theorem witness_Converter_full :
    let s : State := { converting (List.replicate 64 0) with env.script := [.conv 2 4095] }
    s.nextTurn = .conv 2 4095 ∧ s.params.FifoLegal ∧ s.params.fifoDepth ≤ s.adc.fifo.length := by decide
theorem witness_LatchTimeAndStopTurns :
    (atTurn .clkl).nextTurn = .clkl ∧ (atTurn .stop).nextTurn = .stop ∧
      (atTurn (.tick (2 ^ 64 - 1))).nextTurn = .tick (2 ^ 64 - 1) ∧
      (atTurn (.tick (2 ^ 64 - 1))).env.now.toNat + (2 ^ 64 - 1) < 2 ^ 64 := by decide
theorem witness_OnlyPendingSteps :
    (step small = .next small.dropTurn.advance ∧ small.nextTurn = .seq) ∧
      (step (atTurn .clkl) = .next (atTurn .clkl).dropTurn.latchClock ∧ (atTurn .clkl).nextTurn ≠ .seq ∧
        (atTurn .clkl).adc.pend = .fill false) := ⟨⟨rfl, rfl⟩, rfl, by decide, rfl⟩
theorem witness_a_step_that_is_no_reset :
    (∀ h, small.nextTurn ≠ .reset h) ∧ step small = .next small.dropTurn.advance :=
  ⟨fun _ => nofun, rfl⟩
theorem witness_StickyFlags :
    let s : State := { small with anomalies := ⟨true, true, true, true⟩, closed := true, env.stopReq := true }
    (∀ h, s.nextTurn ≠ .reset h) ∧ step s = .next s.dropTurn.advance ∧ s.anomalies.stale = true ∧
      s.anomalies.missing = true ∧ s.anomalies.badTag = true ∧ s.anomalies.dup = true ∧ s.closed = true ∧
      s.env.stopReq = true := ⟨fun _ => nofun, rfl, rfl, rfl, rfl, rfl, rfl, rfl⟩

/-- What a host loads in the witnesses of a reset. -/
def load (n : BitVec 32) : HostLoad := ⟨⟨false, 10, n, 160, 16⟩, [0x65000000], true, .fill true, false⟩

theorem witness_StepKeepsMemoryWf :
    Memory.wf (atTurn (.reset (load 65535))) = true ∧
      step (atTurn (.reset (load 65535))) = .next ((atTurn (.reset (load 65535))).dropTurn.hostReset (load 65535)) :=
  ⟨by decide, rfl⟩
theorem witness_LegalScript : LegalScript (atTurn (.reset (load 65535))) := by
  intro h hm
  simp only [atTurn, List.mem_singleton, Turn.reset.injEq] at hm
  subst hm
  decide
theorem witness_EngineInv : EngineInv small ∧ step small = .next small.dropTurn.advance := by
  refine ⟨?_, rfl⟩
  unfold EngineInv AutoState.Bounded
  decide
theorem witness_SequencerInv : SequencerInv small ∧ LegalScript small ∧ step small = .next small.dropTurn.advance := by
  refine ⟨⟨by decide, by decide, .inl rfl, by decide, by decide, by decide, by decide⟩, ?_, rfl⟩
  intro h hm
  exact absurd hm (List.not_mem_nil)
theorem witness_HostReset :
    (atTurn (.reset (load 1))).nextTurn = .reset (load 1) ∧ small.params.EngineLegal ∧ 1 ≤ (load 1).cfg.n.toNat ∧
      (load 1).cfg.n.toNat ≤ 65535 := by decide

theorem witness_HaltedBlock_reset :
    let s : State := { atTurn (.reset (load 1)) with run := .halted }
    s.run = .halted ∧ s.nextTurn = .reset (load 1) := by decide

theorem witness_OpenMapsOnce :
    let s : State := { small with mapped := false }
    small.mapped = true ∧ s.mapped = false ∧ s.closed = false ∧ s.env.mapOk = true ∧
      ({ s with env.mapOk := false } : State).env.mapOk = false := by decide
theorem witness_Rdb_fault : small.params.winSize ≤ (0x40 : BitVec 16).toNat ∧
    ({ small with mapped := false } : State).mapped = false := by decide
theorem witness_Rdb_split : small.mapped = true ∧ small.params.WindowLegal ∧
    small.params.offFifodata ≤ (0x34 : BitVec 16).toNat ∧ (0x37 : BitVec 16).toNat < small.params.offFifodata + 4 := by
  decide
theorem witness_Rdb_latches : small.mapped = true ∧ small.params.WindowLegal ∧
    (0x33 : BitVec 16).toNat < small.params.offFifodata ∧ (0x3F : BitVec 16).toNat < small.params.winSize ∧
    small.params.offFifodata + 4 ≤ (0x38 : BitVec 16).toNat := by decide
theorem witness_RdbReadsTheRegisters : (withFifo (List.replicate 255 0)).mapped = true ∧
    (withFifo (List.replicate 255 0)).params.WindowLegal ∧ (withFifo (List.replicate 255 0)).adc.fifo.length ≤ 255 :=
  ⟨rfl, by decide, List.length_replicate.le⟩
theorem witness_Wrb_fault : ∀ o ∈ small.params.offsets, (0x38 : BitVec 16).toNat < o ∨ o + 4 ≤ (0x38 : BitVec 16).toNat := by
  decide
theorem witness_Wrb_writes : small.mapped = true ∧ (0x37 : BitVec 16).toNat < small.params.winSize ∧
    ∃ o ∈ small.params.offsets, o ≤ (0x37 : BitVec 16).toNat ∧ (0x37 : BitVec 16).toNat < o + 4 := by decide
theorem witness_WrbWritesTheRegisters : small.mapped = true ∧ small.params.WindowLegal ∧ small.adc.wpOff = false ∧
    ({ small with adc.wpOff := true } : State).adc.wpOff = true ∧
    small.params.offCtrl ∈ [small.params.offClkctrl, small.params.offCtrl, small.params.offStepen,
      small.params.offStepdly.get 3] := by decide
theorem witness_Rdfifo : (withFifo [1, 2]).mapped = true ∧ (withFifo [1, 2]).adc.fifo = 1 :: [2] ∧
    (withFifo []).adc.fifo = [] ∧ ({ small with mapped := false } : State).mapped = false := by decide
theorem witness_Close : small.mapped = true ∧ ({ small with mapped := false } : State).mapped = false := by decide
theorem witness_UnmappedAdcOperations :
    let s : State := { small with mapped := false, cfg.clkDiv := 65534 }
    s.mapped = false ∧ s.phase = .idle ∧ s.cfg.clkDiv.toNat ≤ 65534 ∧ s.cfg.avg.toNat ∈ [1, 2, 4, 8, 16] := by decide

theorem witness_AdcinitTests : small.phase = .idle ∧ small.params.WindowLegal ∧ small.mapped = true ∧
    65534 < ({ small with cfg.clkDiv := 65535 } : State).cfg.clkDiv.toNat ∧
    ({ small with cfg.clkDiv := 65534 } : State).cfg.clkDiv.toNat ≤ 65534 ∧ small.cfg.avg.toNat ∈ [1, 2, 4, 8, 16] ∧
    ({ small with cfg.avg := 5 } : State).cfg.avg.toNat ∉ [1, 2, 4, 8, 16] := by decide
theorem witness_AdcinitPolls :
    let s : State := { inPhase (.adcinitPoll 999) with run := .waiting }
    s.phase = .adcinitPoll 999 ∧ s.run = .waiting ∧ s.mapped = true ∧ s.params.WindowLegal ∧
      s.params.clkWaitMax = some 1000 ∧ s.adc.clkOn = false ∧ 1000 ≤ 999 + 1 ∧ 998 + 1 < 1000 ∧
      ({ s with adc.clkOn := true } : State).adc.clkOn = true := by decide
theorem witness_AdcinitPolls_for_ever :
    let s : State := { inPhase (.adcinitPoll 0) with run := .waiting, params.clkWaitMax := none }
    s.phase = .adcinitPoll 0 ∧ s.run = .waiting ∧ s.mapped = true ∧ s.params.WindowLegal ∧ s.params.clkWaitMax = none ∧
      s.adc.clkOn = false := by decide
theorem witness_AdcinitConfigures :
    let s := inPhase (.adcinitWrite .protectOff)
    s.phase = .adcinitWrite .protectOff ∧ s.mapped = true ∧ s.params.WindowLegal ∧
      s.cfg.avg.toNat ∈ [1, 2, 4, 8, 16] ∧ ({ s with cfg.avg := 1 } : State).cfg.avg.toNat ∈ [1, 2, 4, 8, 16] := by decide
theorem witness_AdcinitWritesAnswer :
    (inPhase (.adcinitWrite .enable)).phase = .adcinitWrite .enable ∧ small.mapped = true ∧ small.params.WindowLegal ∧
      small.cfg.avg.toNat ∈ [1, 2, 4, 8, 16] ∧ InitWrite.protectOn ≠ .enable := by decide
theorem witness_Adcdrain : (withFifo (List.replicate 255 0)).mapped = true ∧ small.params.WindowLegal ∧
    (withFifo (List.replicate 255 0)).phase = .idle ∧ (withFifo (List.replicate 255 0)).adc.fifo.length ≤ 255 ∧
    small.adc.fifo = [] := ⟨rfl, by decide, rfl, List.length_replicate.le, rfl⟩
theorem witness_TriggerStopAndShutdown : small.mapped = true ∧ small.params.WindowLegal ∧
    ({ small with mapped := false } : State).mapped = false := by decide
theorem witness_Adcsettle : small.phase = .idle ∧ (inPhase (.settling 0xFFFFFFFFFFFFFFFE)).phase = .settling 0xFFFFFFFFFFFFFFFE ∧
    (0xFFFFFFFFFFFFFFFE : Time).toNat + small.params.settleDelay < 2 ^ 64 := by decide
theorem witness_Adcharv_counts : small.mapped = true ∧ small.params.WindowLegal ∧ small.phase = .idle ∧
    small.adc.fifo = [] ∧ (withFifo (List.replicate 255 0)).adc.fifo ≠ [] ∧
    (withFifo (List.replicate 255 0)).adc.fifo.length ≤ 255 :=
  ⟨rfl, by decide, rfl, rfl, List.cons_ne_nil _ _, List.length_replicate.le⟩
theorem witness_Adcharv_reads :
    let s : State := { withFifo [0x00030005] with phase := .harvRead }
    s.phase = .harvRead ∧ s.adc.fifo = 0x00030005 :: [] ∧ fifoTag s.params 0x00030005 = (3 : Chan).val ∧
      s.rawValid.get 3 = false ∧ 3 < fifoTag s.params 0x00040005 ∧
      ({ s with rawValid := .fill true } : State).rawValid.get 3 = true := by decide
theorem witness_FifoWordFields : Params.p0.dataLo = 0 ∧ Params.p0.tagLo = 16 ∧ Params.p0.tagW = 4 := by decide
theorem witness_Harvest :
    let order : List Chan := [3, 1, 0, 2]
    let s := withFifo (order.map fun c => fifoPack .p0 c 4095)
    order.Nodup ∧ s.params.WindowLegal ∧ s.params.FifoLegal ∧ s.mapped = true ∧ s.phase = .idle ∧
      s.rawValid = .fill false ∧ s.adc.fifo = order.map (fun c => fifoPack s.params c 4095) := by decide

theorem witness_Medu : 1 ≤ small.cfg.n.toNat ∧ ({ small with cfg.n := 65535 } : State).cfg.n.toNat ≤ 65535 ∧
    small.rawValid.get 0 = false ∧ ({ small with rawValid := .fill true } : State).rawValid.get 0 = true := by decide
theorem witness_MedianIsTheLowerMiddle : ([7] : List Sample).length = 1 ∧ 0 < 1 := by decide
theorem witness_MedianOrderAndOutlier : ([5, 4095, 5] : List Sample).Perm [5, 5, 4095] ∧
    ([5, 4095, 5] : List Sample).length = 3 ∧ ([5, 4095, 5] : List Sample).countP (fun x => decide (x ≠ 5)) ≤ 1 := by
  decide
theorem witness_ConstantSample : 1 ≤ small.cfg.n.toNat ∧ (small.win.get 2).length = small.cfg.n.toNat ∧
    (small.wptr.get 2).toNat < small.cfg.n.toNat ∧ small.cfg.n.toNat ≤ 1 := by decide
theorem witness_ConstantSample_on_time :
    State.reset.win.get 0 = List.replicate State.reset.cfg.n.toNat 0 ∧ State.reset.wptr.get 0 = 0 ∧
      0 < (2000 : Sample).toNat ∧ State.reset.cfg.n.toNat - (State.reset.cfg.n.toNat - 1) / 2 = 51 ∧
      51 ≤ State.reset.cfg.n.toNat := by decide
theorem witness_MeduRefuses : ({ small with cfg.n := 0 } : State).cfg.n.toNat = 0 ∧
    65535 < ({ small with cfg.n := 65536 } : State).cfg.n.toNat := by decide

theorem witness_Modedet_off : (∀ c, (withRaw (.fill 9)).rawValid.get c = true) ∧
    ∀ c, ((withRaw (.fill 9)).raw.get c).toNat < 10 := by decide
theorem witness_Modedet_on :
    let s := withRaw ⟨4001, 4001, 9, 4001⟩
    (∀ c, s.rawValid.get c = true) ∧ (s.raw.get 2).toNat < 10 ∧ ∀ c, c ≠ 2 → 4000 < (s.raw.get c).toNat := by decide
theorem witness_Modedet_unchanged :
    let s := withRaw ⟨9, 4000, 4001, 4001⟩
    (¬ ∀ c, (s.raw.get c).toNat < 10) ∧ (∀ r, ¬ ((s.raw.get r).toNat < 10 ∧ ∀ c, c ≠ r → 4000 < (s.raw.get c).toNat)) ∧
      ¬ ∀ c, small.rawValid.get c = true := by decide
theorem witness_Rateupd : small.autoMode = false ∧ (automatic ⟨511, 0, 0, 0⟩).autoMode = true ∧
    (automatic ⟨511, 0, 0, 0⟩).speedValid = false ∧ small.params.SpeedLegal ∧
    speedTable small.params ((automatic ⟨512, 0, 0, 0⟩).filt.get 0).toNat ≠ (64 : BitVec 32).toNat := by decide
theorem witness_SpeedTable : Params.p0.SpeedLegal ∧ 4095 < 4096 ∧ 0 ≤ 4095 := by decide
theorem witness_DrawRanges :
    let s : State := { small with env.draws := [16, 7] }
    Params.p0.EngineLegal ∧ s.env.draws = 16 :: [7] ∧ 16 ≤ 64 := by decide
theorem witness_AutostepBypass : small.autoMode = false ∧ (1 : Chan) = (automatic ⟨0, 10, 0, 0⟩).rateChan + 1 ∧
    (0 : Chan) = (automatic ⟨0, 10, 0, 0⟩).rateChan ∧ ((automatic ⟨0, 10, 0, 0⟩).filt.get 1).toNat ≤ 10 := by decide

/-- An active engine on channel 1: counter 2 of 3, offset 996 moving up against the limit 1000. -/
def active (now : Time) (draws : List Nat) : State :=
  { automatic ⟨0, 2000, 0, 0⟩ with
    env.now := now, env.draws := draws, auto := small.auto.set 1 ⟨2, 3, 996, 8, 1000, 0, 0, false⟩ }

theorem witness_Autostep_active : EngineInv (active 4999 []) ∧ (active 4999 []).autoMode = true ∧
    (1 : Chan) ≠ (active 4999 []).rateChan ∧ 10 < ((active 4999 []).filt.get 1).toNat := by
  refine ⟨?_, by decide, by decide, by decide⟩
  unfold EngineInv AutoState.Bounded
  decide
/-- The boundary hit: 996 + 8 is clamped to 1000, the limit; both cooldowns run at 4999 and are over at 5000. -/
theorem witness_Autostep_hit :
    (active 4999 []).stepOffset 1 = 1000 ∧ (active 4999 []).StepHits 1 ∧ ¬ (active 4999 []).OffsetCheckDue 1 ∧
      ¬ (active 4999 []).LoopCheckDue 1 ∧ (active 5000 []).StepHits 1 ∧ (active 5000 []).OffsetCheckDue 1 ∧
      (active 5000 []).LoopCheckDue 1 := by
  unfold State.StepHits
  decide
/-- No hit: the biased intensity 3496 + 504 = 4000 is not above the on-threshold (95_test_vectors.md A4). -/
def atThreshold (filt : Sample) : State :=
  { automatic ⟨0, filt, 0, 0⟩ with auto := small.auto.set 1 ⟨0, 1, 496, 8, 1000, 0, 0, false⟩ }
theorem witness_Autostep_no_hit : EngineInv (atThreshold 3496) ∧ (atThreshold 3496).autoMode = true ∧
    (1 : Chan) ≠ (atThreshold 3496).rateChan ∧ 10 < ((atThreshold 3496).filt.get 1).toNat ∧
    (atThreshold 3496).stepOffset 1 = 504 ∧ ¬ (atThreshold 3496).StepHits 1 ∧ (atThreshold 3497).StepHits 1 := by
  unfold EngineInv AutoState.Bounded State.StepHits
  decide
theorem witness_RandOff :
    let s := active 5000 [0, 250]
    EngineInv s ∧ s.env.draws = 0 :: 250 :: [] ∧ 0 < s.params.probDen ∧ loOff s.params ≤ 250 ∧
      250 ≤ s.params.offsetLimitMax ∧ (4999 : Time).toNat < (s.auto.get 1).tOffRand.toNat + 5000 ∧
      (s.auto.get 1).tOffRand.toNat + 5000 ≤ (5000 : Time).toNat ∧ 0 < s.params.probNum ∧ s.params.probNum ≤ 1 := by
  refine ⟨?_, by decide, by decide, by decide, by decide, by decide, by decide, by decide, by decide⟩
  unfold EngineInv AutoState.Bounded
  decide
theorem witness_RandLoop :
    let s := active 5000 [9, 64]
    EngineInv s ∧ s.env.draws = 9 :: 64 :: [] ∧ 9 < s.params.probDen ∧
      loLoop s.params (speedTable s.params (s.filt.get s.rateChan).toNat) ≤ 64 ∧
      64 ≤ speedTable s.params (s.filt.get s.rateChan).toNat ∧
      (4999 : Time).toNat < (s.auto.get 1).tLoopRand.toNat + 5000 ∧
      (s.auto.get 1).tLoopRand.toNat + 5000 ≤ (5000 : Time).toNat ∧ s.params.probNum ≤ 9 ∧ 0 < s.params.probNum := by
  refine ⟨?_, by decide, by decide, by decide, by decide, by decide, by decide, by decide, by decide⟩
  unfold EngineInv AutoState.Bounded
  decide
/-- Both cooldowns over at a hit: both coins succeed, the offset value above the cap and the loop value at the top of its
range; and both fail. -/
theorem witness_Autostep_draws :
    let s := active 5000 [0, 1000, 0, 64, 5]
    EngineInv s ∧ s.autoMode = true ∧ (1 : Chan) ≠ s.rateChan ∧ 10 < (s.filt.get 1).toNat ∧ s.StepHits 1 ∧
      0 < s.params.probDen ∧ loOff s.params ≤ 1000 ∧ 1000 ≤ s.params.offsetLimitMax ∧
      loLoop s.params (speedTable s.params (s.filt.get s.rateChan).toNat) ≤ 64 ∧
      64 ≤ speedTable s.params (s.filt.get s.rateChan).toNat ∧
      s.env.draws =
        (if s.OffsetCheckDue 1 then if 0 < s.params.probNum then [0, 1000] else [0] else []) ++
          (if s.LoopCheckDue 1 then if 0 < s.params.probNum then [0, 64] else [0] else []) ++ [5] ∧
      (active 5000 [9, 1, 5]).env.draws =
        (if s.OffsetCheckDue 1 then if 9 < s.params.probNum then [9, 1000] else [9] else []) ++
          (if s.LoopCheckDue 1 then if 1 < s.params.probNum then [1, 64] else [1] else []) ++ [5] := by
  refine ⟨?_, by decide, by decide, by decide, ?_, by decide, by decide, by decide, by decide, by decide, by decide, by decide⟩
  · unfold EngineInv AutoState.Bounded
    decide
  · unfold State.StepHits
    decide
theorem witness_Chinit :
    let loops : Quad Nat := ⟨16, 64, 16, 64⟩
    let offs : Quad Nat := ⟨250, 1000, 250, 1000⟩
    let s : State := { small with env.draws := [16, 250, 64, 1000, 16, 250, 64, 1000, 5] }
    s.params.Legal ∧ s.env.draws = loops.c0 :: offs.c0 :: loops.c1 :: offs.c1 :: loops.c2 :: offs.c2 :: loops.c3 ::
        offs.c3 :: [5] ∧
      ∀ c, loLoop s.params (loopMax s.params) ≤ loops.get c ∧ loops.get c ≤ loopMax s.params ∧
        loOff s.params ≤ offs.get c ∧ offs.get c ≤ s.params.offsetLimitMax := by decide

theorem witness_Curve : Params.p0.DutyLegal ∧
    (Params.p0.dutyCeil - Params.p0.dutyFloor) * Params.p0.curveDen ≤ 3996 * 3996 * Params.p0.curveNum := by decide
theorem witness_Dcrv : small.params.DutyLegal := by decide
theorem witness_Dnorm : 0 < small.params.budget ∧
    small.params.budget < dutySum ⟨500000, 500000, 500000, 500001⟩ ∧
    dutySum ⟨999000, 999000, 1000, 1000⟩ ≤ small.params.budget := by decide
theorem witness_Pwmapply :
    let s : State := { small with pwm.held := .fill true, nduty.c0 := 1000 }
    small.pwm.held.get 0 = false ∧ s.pwm.held.get 0 = true ∧ s.appliedValid.get 0 = false ∧
      s.nduty.get 0 ≠ s.applied.get 0 ∧ s.params.DutyLegal ∧ s.pwm.writes.toNat + 1 < 2 ^ 64 ∧
      ({ s with appliedValid := .fill true } : State).appliedValid.get 1 = true ∧ s.nduty.get 1 = s.applied.get 1 := by
  decide
theorem witness_PwmLines :
    let s : State := { small with env.pwmOk := ⟨true, true, true, false⟩ }
    (∀ k, small.env.pwmOk.get k = true) ∧ s.env.pwmOk.get 3 = false ∧ ∀ j : Chan, j < 3 → s.env.pwmOk.get j = true := by
  decide

theorem witness_Cfgchk : (65534 : BitVec 32).toNat ≤ 65534 ∧ ¬ (65535 : BitVec 32).toNat ≤ 65534 ∧
    (16 : BitVec 8).toNat ∈ [1, 2, 4, 8, 16] ∧ (3 : BitVec 8).toNat ∉ [1, 2, 4, 8, 16] ∧
    ¬ (65536 : BitVec 32).toNat ≤ 65535 ∧ 1 ≤ (1 : BitVec 32).toNat := by decide
theorem witness_Jumps : small.env.stopReq = false ∧ ({ small with env.stopReq := true } : State).env.stopReq = true := by
  decide
theorem witness_Sleep : small.phase = .idle ∧ 0 < small.cfg.sleep.toNat ∧
    ({ small with cfg.sleep := 0 } : State).cfg.sleep = 0 ∧
    (inPhase (.sleeping 0xFFFFFFFFFFFFFFF5)).phase = .sleeping 0xFFFFFFFFFFFFFFF5 ∧
    (0xFFFFFFFFFFFFFFF5 : Time).toNat + small.cfg.sleep.toNat < 2 ^ 64 := by decide
theorem witness_DebugLine : small.cfg.debug = false ∧ ({ small with cfg.debug := true } : State).cfg.debug = true := by
  decide

end Sys2Proof.Tests
end

section
/-! What every atomic step can do: the elements each operation may write, one inversion of `exec` and one of `step`. -/

namespace Sys2Proof.Machine

/-! ## The elements an operation may write -/

/-- The backing state of the window's registers that a byte write may change (20_memory.md R44). -/
def windowFields : List Field :=
  [.clkReq, .adcEn, .wpOff, .clkDiv, .stepEn, .pend, .stepMode, .stepAvg, .stepInSel, .stepDelay]

/-- The auto-mode state of the channels, and what a draw of the random source moves. -/
def engineFields : List Field :=
  [.loopCounter, .loopLimit, .offset, .offsetDelta, .offsetLimit, .tLoopRand, .tOffRand, .ratePend, .draws, .freeIx]

/-- Where SEQ stands: what an operation moves on besides its own effects. -/
def seqFields : List Field := [.pc, .phase, .run]

/-- What fault entry writes besides `run` and `phase` (60_exceptions.md R176). -/
def faultFields : List Field := [.fault, .faultPc, .faultInfo, .exitStatus, .log, .freeIx]

/-- The elements no operation lists among its effects: where SEQ stands, the fault registers, and what only the host and
the schedule write (10_state.md R10, R37, 20_memory.md R41). -/
def unlistedFields : List Field :=
  [.pc, .phase, .run, .fault, .faultPc, .faultInfo, .exitStatus, .params, .cfg, .prog, .mapOk, .pwmOk, .stopReq,
    .script]

/-- The elements an operation's steps write besides `seqFields`, fault entry left out. -/
def opEffects : Instr → List Field
  | .openMap => [.mapped]
  | .rdb _ => [.rdata, .freeIx]
  | .wrb _ _ => windowFields
  | .rdfifo => [.fdata, .fifo, .freeIx]
  | .closeMap => [.mapped, .closed]
  | .adcinit => windowFields
  | .adcdrain => [.fifo, .freeIx, .aStale, .log]
  | .adctrig _ => .rawValid :: windowFields
  | .adcsettle => [.now, .freeIx]
  | .adcharv => [.fifo, .freeIx, .raw, .rawValid, .aBadTag, .aDup, .log]
  | .adcstop => windowFields
  | .adcshut => windowFields
  | .meduR _ => [.win, .wptr, .filt, .aMissing, .log]
  | .meduI _ _ => [.win, .wptr, .filt]
  | .modedet => [.autoMode, .rateChan, .speedValid]
  | .rateupd => [.ratePend, .speedMag, .speedValid]
  | .autostep _ => .inten :: engineFields
  | .chinit => .speedValid :: engineFields
  | .dcrvR _ => [.duty]
  | .dcrvI _ _ => [.duty]
  | .dnorm => [.nduty]
  | .pwmapply _ => [.applied, .appliedValid, .pwmPeriod, .pwmDuty, .pwmWrites, .freeIx]
  | .pwmacq => [.pwmHeld]
  | .pwmrel => [.pwmHeld]
  | .cfgchk => []
  | .jmp _ => []
  | .bstop _ => []
  | .sleep => [.now, .freeIx]
  | .dbgline => [.debug]
  | .halt => []

/-- The operations of several atomic steps: they alone write `phase` (20_memory.md R51). -/
def opLoops : Instr → Bool
  | .adcinit => true
  | .adcdrain => true
  | .adcsettle => true
  | .adcharv => true
  | .sleep => true
  | _ => false

theorem not_mem_opEffects (i : Instr) {f : Field} (hf : f ∈ unlistedFields) : f ∉ opEffects i := by
  revert f
  cases i <;> simp [unlistedFields, opEffects, windowFields, engineFields]

/-! ## Where SEQ stands inside an operation -/

/-- `run` as the phase of a block that is not halted determines it (10_state.md R14). -/
def Phase.runState (p : Phase) : RunState := if p.waits then .waiting else .running

/-- SEQ stands between operations or inside `i`, and `run` is WAITING exactly inside a wait. -/
def InStep (i : Instr) (s : State) : Prop := s.phase.of i ∧ s.run = s.phase.runState

/-- An operation of one atomic step has no phase of its own. -/
theorem Phase.eq_idle_of_not_loops {i : Instr} {p : Phase} (hi : opLoops i = false) (hp : p.of i) : p = .idle := by
  cases p <;> simp_all [Phase.of, opLoops]

/-! ## The shape of an atomic step of an operation -/

/-- The step entered a fault from `s`. -/
def Faulted (s t : State) : Prop := ∃ f info, t = s.raise f info

/-- What one atomic step of the operation `i` can do: raise a fault, after effects of its own or none; complete the
operation; proceed inside it; or halt. -/
inductive OpStep (i : Instr) (s t : State) : Prop
  | raises {u : State} (hu : OnlyChanges (opEffects i) s u) (ht : Faulted u t)
  | completes (hf : OnlyChanges (seqFields ++ opEffects i) s t) (hpc : t.pc = s.pc + 1 ∨ t.pc < 65536)
      (hc : InStep i s → t.phase = .idle ∧ t.run = .running)
  | proceeds (hf : OnlyChanges (seqFields ++ opEffects i) s t) (hpc : t.pc = s.pc) (hc : InStep i s → InStep i t)
  | halts (hi : i = .halt) (ht : t = { s with faultRegs.exitStatus := 0, run := .halted })

/-! ### Shared endings -/

theorem State.trap_faulted {s t : State} {e : Trap} (h : s.trap e = .next t) : Faulted s t :=
  ⟨e.fault, e.info, (Host.Outcome.next.inj h).symm⟩

/-- A byte write as a whole step: it faults, or goes on from the state with the written byte (20_memory.md R44, R47). -/
theorem State.writeThen_cases {s t : State} {off : Nat} {v : Byte} {k : State → State}
    (h : s.writeThen off v k = .next t) :
    Faulted s t ∨ ∃ r i, t = k { s with adc := winWrite s.adc r i v } := by
  unfold State.writeThen at h
  rcases memWrite_cases s off v with he | ⟨r, i, -, he⟩
  · rw [he] at h
    exact .inl (State.trap_faulted h)
  · rw [he] at h
    exact .inr ⟨r, i, (Host.Outcome.next.inj h).symm⟩

theorem OnlyChanges.left {l l' : List Field} {s t : State} (h : OnlyChanges l s t) : OnlyChanges (l ++ l') s t :=
  h.mono fun _ hf => List.mem_append_left _ hf

theorem OnlyChanges.right {l l' : List Field} {s t : State} (h : OnlyChanges l' s t) : OnlyChanges (l ++ l') s t :=
  h.mono fun _ hf => List.mem_append_right _ hf

/-- An element no operation lists is unchanged by an operation's own effects. -/
theorem OnlyChanges.unlisted {i : Instr} {s u : State} (h : OnlyChanges (opEffects i) s u) {f : Field}
    (hf : f ∈ unlistedFields) : f.Same s u := h f (not_mem_opEffects i hf)

theorem OpStep.of_faulted {i : Instr} {s t : State} (h : Faulted s t) : OpStep i s t :=
  .raises (OnlyChanges.refl _ _) h

theorem OpStep.of_trap {i : Instr} {s t : State} {e : Trap} (h : s.trap e = .next t) : OpStep i s t :=
  .of_faulted (State.trap_faulted h)

/-- An operation of one atomic step that moves `pc` and has no other effect on where SEQ stands. -/
theorem OpStep.of_single {i : Instr} {s u t : State} (hi : opLoops i = false) (hu : OnlyChanges (opEffects i) s u)
    (hut : OnlyChanges [.pc] u t) (hpc : t.pc = u.pc + 1 ∨ t.pc < 65536) : OpStep i s t := by
  have hp : u.pc = s.pc := hu.unlisted (f := .pc) (by decide)
  have hph : u.phase = s.phase := hu.unlisted (f := .phase) (by decide)
  have hr : u.run = s.run := hu.unlisted (f := .run) (by decide)
  have hph' : t.phase = u.phase := hut .phase (by decide)
  have hr' : t.run = u.run := hut .run (by decide)
  refine .completes (hu.right.trans (hut.mono (by simp [seqFields]))) (hp ▸ hpc) fun ⟨ho, hrun⟩ => ?_
  have hidle := Phase.eq_idle_of_not_loops hi ho
  rw [hidle] at hrun hph
  exact ⟨hph'.trans hph, (hr'.trans hr).trans hrun⟩

/-- An operation of one atomic step that ends with `pc <- pc + 1`. -/
theorem OpStep.of_advance {i : Instr} {s u t : State} (hi : opLoops i = false) (hu : OnlyChanges (opEffects i) s u)
    (h : t = u.advance) : OpStep i s t := by
  subst h
  exact .of_single hi hu u.advance_frame (.inl rfl)

/-- The same for a step given by its outcome. -/
theorem OpStep.of_next_advance {i : Instr} {s u t : State} (hi : opLoops i = false)
    (hu : OnlyChanges (opEffects i) s u) (h : (.next u.advance : Result) = .next t) : OpStep i s t :=
  .of_advance hi hu (Host.Outcome.next.inj h).symm

/-- A byte write that ends with `pc <- pc + 1`. -/
theorem OpStep.of_writeThen {i : Instr} {s u t : State} {off : Nat} {v : Byte} (hi : opLoops i = false)
    (hw : ∀ f ∈ windowFields, f ∈ opEffects i) (hu : OnlyChanges (opEffects i) s u)
    (h : u.writeThen off v State.advance = .next t) : OpStep i s t := by
  rcases State.writeThen_cases h with hf | ⟨r, j, ht⟩
  · exact .raises hu hf
  · exact .of_advance hi (hu.trans ((winWrite_frame u r j v).mono hw)) ht

/-! ## The register interface (40_register_interface.md) -/

theorem execOpen_opStep {s t : State} (h : execOpen s = .next t) : OpStep .openMap s t := by
  unfold execOpen at h
  split at h
  · exact .of_trap h
  · split at h
    · exact .of_trap h
    · refine .of_next_advance rfl (fun f hf => ?_) h
      cases f <;> first | rfl | exact fun _ => rfl | exact absurd (by simp [opEffects]) hf

theorem execRdb_opStep {off : BitVec 16} {s t : State} (h : execRdb off s = .next t) : OpStep (.rdb off) s t := by
  unfold execRdb at h
  split at h
  · refine .of_next_advance rfl (fun f hf => ?_) h
    cases f <;> first | rfl | exact fun _ => rfl | exact absurd (by simp [opEffects]) hf
  · exact .of_trap h

theorem execWrb_opStep {off : BitVec 16} {val : Byte} {s t : State} (h : execWrb off val s = .next t) :
    OpStep (.wrb off val) s t :=
  .of_writeThen rfl (fun _ hf => hf) (OnlyChanges.refl _ _) h

/-- `RDFIFO` faults, or pops the head into `fdata` (R83). -/
theorem execRdfifo_cases {s t : State} (h : execRdfifo s = .next t) :
    Faulted s t ∨ t = State.advance { s.fifoPop with fdata := s.fifoHead } := by
  unfold execRdfifo at h
  split at h
  · exact .inl (State.trap_faulted h)
  · exact .inr (Host.Outcome.next.inj h).symm

theorem execRdfifo_opStep {s t : State} (h : execRdfifo s = .next t) : OpStep .rdfifo s t := by
  rcases execRdfifo_cases h with hf | ht
  · exact .of_faulted hf
  · refine .of_advance rfl ((s.fifoPop_frame.mono (by simp [opEffects])).trans fun f hf => ?_) ht
    cases f <;> first | rfl | exact fun _ => rfl | exact absurd (by simp [opEffects]) hf

/-- `CLOSE` faults, or unmaps the window for good (R84). -/
theorem execClose_cases {s t : State} (h : execClose s = .next t) :
    Faulted s t ∨ t = State.advance { s with mapped := false, closed := true } := by
  unfold execClose at h
  split at h
  · exact .inl (State.trap_faulted h)
  · exact .inr (Host.Outcome.next.inj h).symm

theorem execClose_opStep {s t : State} (h : execClose s = .next t) : OpStep .closeMap s t := by
  rcases execClose_cases h with hf | ht
  · exact .of_faulted hf
  · refine .of_advance rfl (fun f hf => ?_) ht
    cases f <;> first | rfl | exact fun _ => rfl | exact absurd (by simp [opEffects]) hf

/-! ## The ADC controller (41_adc_controller.md) -/

/-- A step inside a looping operation that leaves `pc`. -/
theorem OpStep.of_phase {i : Instr} {s t : State} (hf : OnlyChanges ([.phase, .run] ++ opEffects i) s t)
    (hc : InStep i s → InStep i t) : OpStep i s t := by
  refine .proceeds (hf.mono fun f h => ?_) (hf .pc ?_) hc
  · simp only [seqFields, List.mem_append, List.mem_cons] at h ⊢
    tauto
  · simpa using not_mem_opEffects i (f := .pc) (by decide)

/-- `run` and `phase` written, SEQ is moved and nothing else. -/
theorem State.moveSeq_frame (s : State) (r : RunState) (p : Phase) :
    OnlyChanges [.phase, .run] s { s with run := r, phase := p } := by
  intro f hf
  cases f <;> first | rfl | exact fun _ => rfl | exact absurd (by simp) hf

/-- The end of a looping operation that does not wait there. -/
theorem OpStep.of_complete {i : Instr} {s u t : State} (hu : OnlyChanges (opEffects i) s u) (ht : t = u.complete)
    (hc : InStep i s → s.run = .running) : OpStep i s t := by
  subst ht
  have hp : u.pc = s.pc := hu.unlisted (f := .pc) (by decide)
  have hr : u.run = s.run := hu.unlisted (f := .run) (by decide)
  exact .completes (hu.right.trans (u.complete_frame.mono (by simp [seqFields]))) (.inl (congrArg (· + 1) hp))
    fun hs => ⟨rfl, hr.trans (hc hs)⟩

theorem adcinitStart_opStep {s t : State} (h : adcinitStart s = .next t) : OpStep .adcinit s t := by
  unfold adcinitStart at h
  split at h
  · exact .of_trap h
  · split at h
    · exact .of_trap h
    · rcases State.writeThen_cases h with hf | ⟨r, j, rfl⟩
      · exact .of_faulted hf
      · exact .of_phase ((winWrite_frame s r j (clkctrlByte true)).right.trans (State.moveSeq_frame _ _ _).left)
          fun _ => ⟨rfl, rfl⟩

theorem adcinitPoll_opStep {polls : Nat} {s t : State} (hp : s.phase = .adcinitPoll polls)
    (h : adcinitPoll polls s = .next t) : OpStep .adcinit s t := by
  unfold adcinitPoll at h
  split at h
  · exact .of_trap h
  · split at h
    · obtain rfl := Host.Outcome.next.inj h
      exact .of_phase (s.moveSeq_frame _ _).left fun _ => ⟨rfl, rfl⟩
    · split at h
      · exact .of_trap h
      · obtain rfl := Host.Outcome.next.inj h
        refine .of_phase (s.moveSeq_frame s.run _).left fun hs => ⟨rfl, ?_⟩
        have hr := hs.2
        rw [hp] at hr
        exact hr

/-- What follows a configuration write: the next write, or the end of the operation. -/
theorem State.afterInitWrite_cases (w : InitWrite) (s : State) :
    (∃ w', s.afterInitWrite w = { s with phase := .adcinitWrite w' }) ∨ s.afterInitWrite w = s.complete := by
  unfold State.afterInitWrite
  split
  · next w' _ => exact .inl ⟨w', rfl⟩
  · exact .inr rfl

theorem adcinitWrite_opStep {w : InitWrite} {s t : State} (hp : s.phase = .adcinitWrite w)
    (h : adcinitWrite w s = .next t) : OpStep .adcinit s t := by
  unfold adcinitWrite at h
  split at h
  · next v _ =>
    rcases State.writeThen_cases h with hf | ⟨r, j, ht⟩
    · exact .of_faulted hf
    · have hu := winWrite_frame s r j v
      have hrun : InStep .adcinit s → s.run = .running := fun hs => by
        have hr := hs.2
        rw [hp] at hr
        exact hr
      rcases State.afterInitWrite_cases w { s with adc := winWrite s.adc r j v } with ⟨w', hw⟩ | hw <;> rw [hw] at ht
      · subst ht
        exact .of_phase (hu.right.trans (State.moveSeq_frame _ s.run _).left) fun hs => ⟨rfl, hrun hs⟩
      · exact .of_complete hu ht hrun
  · exact .of_trap h

theorem execAdcinit_opStep {s t : State} (h : execAdcinit s = .next t) : OpStep .adcinit s t := by
  unfold execAdcinit at h
  split at h
  · next polls hp => exact adcinitPoll_opStep hp h
  · next w hp => exact adcinitWrite_opStep hp h
  · exact adcinitStart_opStep h

/-- A read of `FIFOCNT` in `ADCDRAIN` faults, ends the loop, or goes on to the next word (R96). -/
theorem drainCount_cases {n : Nat} {s t : State} (h : drainCount n s = .next t) :
    Faulted s t ∨ t = s.drained n ∨ t = { s with phase := .drainRead n } := by
  unfold drainCount at h
  split at h
  · exact .inl (State.trap_faulted h)
  · split at h
    · exact .inr (.inl (Host.Outcome.next.inj h).symm)
    · exact .inr (.inr (Host.Outcome.next.inj h).symm)

/-- A read of `FIFODATA` in `ADCDRAIN` faults or pops a word (R96). -/
theorem drainRead_cases {n : Nat} {s t : State} (h : drainRead n s = .next t) :
    Faulted s t ∨ t = { s.fifoPop with phase := .drainCount (n + 1) } := by
  unfold drainRead at h
  split at h
  · exact .inl (State.trap_faulted h)
  · exact .inr (Host.Outcome.next.inj h).symm

/-- One atomic step of `ADCDRAIN`: a fault, the end of the loop, the count read, or a word popped. -/
theorem execAdcdrain_cases {s t : State} (h : execAdcdrain s = .next t) :
    Faulted s t ∨ (∃ n, t = s.drained n) ∨ (∃ n, t = { s with phase := .drainRead n }) ∨
      ∃ n, t = { s.fifoPop with phase := .drainCount n } := by
  unfold execAdcdrain at h
  split at h
  · rcases drainCount_cases h with hf | ht | ht
    exacts [.inl hf, .inr (.inl ⟨_, ht⟩), .inr (.inr (.inl ⟨_, ht⟩))]
  · rcases drainRead_cases h with hf | ht
    exacts [.inl hf, .inr (.inr (.inr ⟨_, ht⟩))]
  · rcases drainCount_cases h with hf | ht | ht
    exacts [.inl hf, .inr (.inl ⟨_, ht⟩), .inr (.inr (.inl ⟨_, ht⟩))]

/-- The end of the drain is the completion of a state that at most the sticky flag and the log tell from `s`. -/
theorem State.drained_eq (s : State) (n : Nat) : s.drained n = s.complete ∨ s.drained n = (s.markStale n).complete := by
  unfold State.drained
  split
  exacts [.inl rfl, .inr rfl]

theorem State.markStale_frame (s : State) (n : Nat) : OnlyChanges [.aStale, .log] s (s.markStale n) := by
  intro f hf
  cases f <;> first | rfl | exact fun _ => rfl | exact absurd (by simp) hf

/-- Inside a looping operation that never waits SEQ is running. -/
theorem InStep.running_of_not_waiting {i : Instr} {s : State} (hi : ∀ p : Phase, p.of i → p.waits = false)
    (hs : InStep i s) : s.run = .running := by
  obtain ⟨ho, hr⟩ := hs
  rw [hr, Phase.runState, hi _ ho]
  rfl

theorem Phase.drain_not_waits (p : Phase) (hp : p.of .adcdrain) : p.waits = false := by
  cases p <;> simp_all [Phase.of, Phase.waits]

theorem Phase.harv_not_waits (p : Phase) (hp : p.of .adcharv) : p.waits = false := by
  cases p <;> simp_all [Phase.of, Phase.waits]

theorem execAdcdrain_opStep {s t : State} (h : execAdcdrain s = .next t) : OpStep .adcdrain s t := by
  have hrun : InStep .adcdrain s → s.run = .running := InStep.running_of_not_waiting Phase.drain_not_waits
  rcases execAdcdrain_cases h with hf | ⟨n, rfl⟩ | ⟨n, rfl⟩ | ⟨n, rfl⟩
  · exact .of_faulted hf
  · rcases s.drained_eq n with hd | hd
    · exact .of_complete (OnlyChanges.refl _ _) hd hrun
    · exact .of_complete ((s.markStale_frame n).mono (by simp [opEffects])) hd hrun
  · exact .of_phase (s.moveSeq_frame s.run _).left fun hs => ⟨rfl, hrun hs⟩
  · have hu : OnlyChanges (opEffects .adcdrain) s s.fifoPop := s.fifoPop_frame.mono (by simp [opEffects])
    exact .of_phase (hu.right.trans (s.fifoPop.moveSeq_frame s.fifoPop.run _).left)
      fun hs => ⟨rfl, (hu.unlisted (f := .run) (by decide)).trans (hrun hs)⟩

theorem execAdctrig_opStep {mask : BitVec 4} {s t : State} (h : execAdctrig mask s = .next t) :
    OpStep (.adctrig mask) s t := by
  refine .of_writeThen rfl (fun _ hf => List.mem_cons_of_mem _ hf) (fun f hf => ?_) h
  cases f <;> first | rfl | exact fun _ => rfl | exact absurd (by simp [opEffects]) hf

theorem execAdcstop_opStep {s t : State} (h : execAdcstop s = .next t) : OpStep .adcstop s t :=
  .of_writeThen rfl (fun _ hf => hf) (OnlyChanges.refl _ _) h

theorem execAdcshut_opStep {s t : State} (h : execAdcshut s = .next t) : OpStep .adcshut s t :=
  .of_writeThen rfl (fun _ hf => hf) (OnlyChanges.refl _ _) h

/-! ### Waits -/

theorem OpStep.of_startWait {i : Instr} {s t : State} {p : Time → Phase} (hp : (p s.env.now).of i)
    (hw : (p s.env.now).waits = true) (ht : t = s.startWait p) : OpStep i s t := by
  subst ht
  exact .of_phase (s.moveSeq_frame _ _).left fun _ => ⟨hp, (if_pos hw).symm⟩

theorem OpStep.of_endWait {i : Instr} {s t : State} {t0 : Time} {delay : Nat}
    (hi : ∀ f ∈ [.now, .freeIx], f ∈ opEffects i) (ht : t = s.endWait t0 delay) : OpStep i s t := by
  subst ht
  have hu := (s.passTime_frame (t0.toNat + delay)).mono hi
  have hpc := hu.unlisted (f := .pc) (by decide)
  rcases s.endWait_cases t0 delay with ⟨-, he⟩ | ⟨-, he⟩ <;> rw [he]
  · have hm := State.moveSeq_frame (s.passTime (t0.toNat + delay)) .running .idle
    have hc := hm.mono (l' := seqFields) (by simp [seqFields])
    exact .completes (hu.right.trans (hc.trans ((State.advance_frame _).mono (by simp [seqFields]))).left)
      (.inl (congrArg (· + 1) hpc)) fun _ => ⟨rfl, rfl⟩
  · have hph := hu.unlisted (f := .phase) (by decide)
    have hr := hu.unlisted (f := .run) (by decide)
    exact .proceeds hu.right hpc fun ⟨ho, hrun⟩ => ⟨hph ▸ ho, hr.trans (hrun.trans (congrArg Phase.runState hph.symm))⟩

/-- One atomic step of `ADCSETTLE`: the start of the wait or its end (R99). -/
theorem execAdcsettle_cases {s t : State} (h : execAdcsettle s = .next t) :
    t = s.startWait .settling ∨ ∃ t0, t = s.endWait t0 s.params.settleDelay := by
  unfold execAdcsettle at h
  split at h
  · exact .inr ⟨_, (Host.Outcome.next.inj h).symm⟩
  · exact .inl (Host.Outcome.next.inj h).symm

theorem execAdcsettle_opStep {s t : State} (h : execAdcsettle s = .next t) : OpStep .adcsettle s t := by
  rcases execAdcsettle_cases h with ht | ⟨t0, ht⟩
  · exact .of_startWait (p := .settling) rfl rfl ht
  · exact .of_endWait (by simp [opEffects]) ht

/-! ### ADCHARV -/

/-- One atomic step of `ADCHARV`: a fault, the end of the loop, the count read, or a word harvested (R100). -/
theorem execAdcharv_cases {s t : State} (h : execAdcharv s = .next t) :
    Faulted s t ∨ t = s.complete ∨ t = { s with phase := .harvRead } ∨
      t = { s.fifoPop.harvestWord s.fifoHead with phase := .harvCount } := by
  unfold execAdcharv harvRead harvCount at h
  split at h
  · split at h
    · exact .inl (State.trap_faulted h)
    · exact .inr (.inr (.inr (Host.Outcome.next.inj h).symm))
  · split at h
    · exact .inl (State.trap_faulted h)
    · split at h
      · exact .inr (.inl (Host.Outcome.next.inj h).symm)
      · exact .inr (.inr (.inl (Host.Outcome.next.inj h).symm))

/-- A harvested word is a bad tag, or a sample stored after the duplicate flag was set or not (R100). -/
theorem State.harvestWord_cases (s : State) (w : Word) : s.harvestWord w = s.markBadTag w ∨
    ∃ u raw valid, (u = s ∨ u = s.markDup w) ∧ s.harvestWord w = { u with raw := raw, rawValid := valid } := by
  unfold State.harvestWord
  split
  · refine .inr ⟨_, _, _, ?_, rfl⟩
    split
    exacts [.inr rfl, .inl rfl]
  · exact .inl rfl

theorem State.harvestWord_frame (s : State) (w : Word) :
    OnlyChanges [.raw, .rawValid, .aBadTag, .aDup, .log] s (s.harvestWord w) := by
  rcases s.harvestWord_cases w with he | ⟨u, raw, valid, rfl | rfl, he⟩ <;> rw [he] <;> intro f hf <;>
    cases f <;> first | rfl | exact fun _ => rfl | exact absurd (by simp) hf

theorem execAdcharv_opStep {s t : State} (h : execAdcharv s = .next t) : OpStep .adcharv s t := by
  have hrun : InStep .adcharv s → s.run = .running := InStep.running_of_not_waiting Phase.harv_not_waits
  rcases execAdcharv_cases h with hf | ht | rfl | rfl
  · exact .of_faulted hf
  · exact .of_complete (OnlyChanges.refl _ _) ht hrun
  · exact .of_phase (s.moveSeq_frame s.run _).left fun hs => ⟨rfl, hrun hs⟩
  · have hu : OnlyChanges (opEffects .adcharv) s (s.fifoPop.harvestWord s.fifoHead) :=
      (s.fifoPop_frame.mono (by simp [opEffects])).trans ((s.fifoPop.harvestWord_frame _).mono (by simp [opEffects]))
    exact .of_phase (hu.right.trans (State.moveSeq_frame _ (s.fifoPop.harvestWord s.fifoHead).run _).left)
      fun hs => ⟨rfl, (hu.unlisted (f := .run) (by decide)).trans (hrun hs)⟩

/-! ## The median filter (42_median_filter.md) -/

theorem State.markMissing_frame (s : State) (c : Chan) : OnlyChanges [.aMissing, .log] s (s.markMissing c) := by
  intro f hf
  cases f <;> first | rfl | exact fun _ => rfl | exact absurd (by simp) hf

/-- A sample is entered only while the window's size is given (45_sequencer.md R152). -/
theorem enterSample_cases {c : Chan} {x : Sample} {s t : State} (h : enterSample c x s = .next t) :
    t = (s.medianUpdate c x).advance := by
  unfold enterSample at h
  split at h
  · exact (Host.Outcome.next.inj h).symm
  · exact nomatch h

/-- `MEDU.R` enters the channel's sample, or marks it missing (R113). -/
theorem execMeduR_cases {c : Chan} {s t : State} (h : execMeduR c s = .next t) :
    t = (s.medianUpdate c (s.raw.get c)).advance ∨ t = (s.markMissing c).advance := by
  unfold execMeduR at h
  split at h
  · exact .inl (enterSample_cases h)
  · exact .inr (Host.Outcome.next.inj h).symm

theorem execMeduR_opStep {c : Chan} {s t : State} (h : execMeduR c s = .next t) : OpStep (.meduR c) s t := by
  rcases execMeduR_cases h with ht | ht
  · exact .of_advance rfl ((s.medianUpdate_frame c _).mono (by simp [opEffects])) ht
  · exact .of_advance rfl ((s.markMissing_frame c).mono (by simp [opEffects])) ht

theorem execMeduI_opStep {c : Chan} {imm : BitVec 12} {s t : State} (h : execMeduI c imm s = .next t) :
    OpStep (.meduI c imm) s t :=
  .of_advance rfl (s.medianUpdate_frame c imm) (enterSample_cases h)

/-! ## The auto-mode engine (43_auto_mode.md) -/

theorem State.detectMode_frame (s : State) : OnlyChanges [.autoMode, .rateChan, .speedValid] s s.detectMode := by
  intro f hf
  unfold State.detectMode
  split
  · split
    · cases f <;> first | rfl | exact fun _ => rfl | exact absurd (by simp) hf
    · split <;> cases f <;> first | rfl | exact fun _ => rfl | exact absurd (by simp) hf
  · exact OnlyChanges.refl _ s f hf

/-- A raised pending flag is all that `RATEUPD` does to a channel (R126). -/
theorem State.raisePending_get (s : State) (c : Chan) :
    s.raisePending.auto.get c = s.auto.get c ∨ s.raisePending.auto.get c = { s.auto.get c with ratePend := true } := by
  simp only [State.raisePending, Quad.get_ofFn]
  split
  exacts [.inl rfl, .inr rfl]

theorem State.raisePending_frame (s : State) : OnlyChanges [.ratePend] s s.raisePending := by
  intro f hf
  cases f
  case ratePend => exact absurd (by simp) hf
  all_goals first
    | rfl
    | (intro c; rcases s.raisePending_get c with h | h <;> simp only [h])

theorem execModedet_opStep {s t : State} (h : execModedet s = .next t) : OpStep .modedet s t :=
  .of_next_advance rfl s.detectMode_frame h

theorem execRateupd_opStep {s t : State} (h : execRateupd s = .next t) : OpStep .rateupd s t := by
  unfold execRateupd at h
  split at h
  · refine .of_next_advance rfl ((s.raisePending_frame.mono (by simp [opEffects])).trans fun f hf => ?_) h
    cases f <;> first | rfl | exact fun _ => rfl | exact absurd (by simp [opEffects]) hf
  · exact .of_next_advance rfl (OnlyChanges.refl _ _) h

theorem State.setAuto_engine (s : State) (c : Chan) (a : AutoState) : OnlyChanges engineFields s (s.setAuto c a) :=
  (s.setAuto_frame c a).mono (by simp [engineFields])

theorem State.afterDraw_engine (s : State) : OnlyChanges engineFields s s.afterDraw :=
  s.afterDraw_frame.mono (by simp [engineFields])

theorem randOff_frame (c : Chan) (now : Time) (s : State) : OnlyChanges engineFields s (randOff c now s) := by
  have hu := fun a => (s.setAuto_engine c a).trans (s.setAuto c a).afterDraw_engine
  unfold randOff
  split
  · dsimp only
    split
    · exact ((hu _).trans (State.afterDraw_engine _)).trans (State.setAuto_engine _ _ _)
    · exact hu _
  · exact OnlyChanges.refl _ _

theorem randLoop_frame (c : Chan) (now : Time) (s : State) : OnlyChanges engineFields s (randLoop c now s) := by
  have hu := fun a => (s.setAuto_engine c a).trans (s.setAuto c a).afterDraw_engine
  unfold randLoop
  split
  · dsimp only
    split
    · exact ((hu _).trans (State.afterDraw_engine _)).trans (State.setAuto_engine _ _ _)
    · exact hu _
  · exact OnlyChanges.refl _ _

theorem State.advanceEngine_frame (s : State) (c : Chan) : OnlyChanges engineFields s (s.advanceEngine c) := by
  unfold State.advanceEngine
  dsimp only
  split
  · exact ((s.setAuto_engine c _).trans (randOff_frame _ _ _)).trans (randLoop_frame _ _ _)
  · exact s.setAuto_engine c _

theorem State.outputBiased_frame (s : State) (c : Chan) : OnlyChanges [.inten] s (s.outputBiased c) := by
  intro f hf
  cases f <;> first | rfl | exact fun _ => rfl | exact absurd (by simp) hf

theorem State.outputFiltered_frame (s : State) (c : Chan) : OnlyChanges [.inten] s (s.outputFiltered c) := by
  intro f hf
  cases f <;> first | rfl | exact fun _ => rfl | exact absurd (by simp) hf

/-- `AUTOSTEP` advances an active engine, and bypasses it otherwise (R127). -/
theorem execAutostep_cases {c : Chan} {s t : State} (h : execAutostep c s = .next t) :
    t = ((s.advanceEngine c).outputBiased c).advance ∨ t = (s.outputFiltered c).advance := by
  unfold execAutostep at h
  split at h
  · exact .inl (Host.Outcome.next.inj h).symm
  · exact .inr (Host.Outcome.next.inj h).symm

theorem execAutostep_opStep {c : Chan} {s t : State} (h : execAutostep c s = .next t) : OpStep (.autostep c) s t := by
  rcases execAutostep_cases h with ht | ht
  · exact .of_advance rfl (((s.advanceEngine_frame c).mono fun _ hf => List.mem_cons_of_mem _ hf).trans
      ((State.outputBiased_frame _ c).mono (by simp))) ht
  · exact .of_advance rfl ((s.outputFiltered_frame c).mono (by simp [opEffects])) ht

theorem createChannel_frame (c : Chan) (s : State) : OnlyChanges engineFields s (createChannel c s) :=
  ((s.afterDraw_engine.trans (State.afterDraw_engine _)).trans (State.setAuto_engine _ c _))

/-- The four channels created in order, before `CHINIT` clears the speed and moves on (R134). -/
def createChannels (s : State) : State := createChannel 3 (createChannel 2 (createChannel 1 (createChannel 0 s)))

theorem execChinit_eq {s t : State} (h : execChinit s = .next t) :
    t = State.advance { createChannels s with speedValid := false } := (Host.Outcome.next.inj h).symm

theorem createChannels_frame (s : State) : OnlyChanges engineFields s (createChannels s) :=
  (((createChannel_frame 0 s).trans (createChannel_frame 1 _)).trans (createChannel_frame 2 _)).trans
    (createChannel_frame 3 _)

theorem execChinit_opStep {s t : State} (h : execChinit s = .next t) : OpStep .chinit s t := by
  refine .of_advance rfl
    (((createChannels_frame s).mono fun _ hf => List.mem_cons_of_mem _ hf).trans fun f hf => ?_) (execChinit_eq h)
  cases f <;> first | rfl | exact fun _ => rfl | exact absurd (by simp) hf

/-! ## The duty controller (44_duty_controller.md) -/

theorem State.setDuty_frame (s : State) (q : Quad (BitVec 32)) : OnlyChanges [.duty] s { s with duty := q } := by
  intro f hf
  cases f <;> first | rfl | exact fun _ => rfl | exact absurd (by simp) hf

theorem State.setHeld_frame (s : State) (q : Quad Bool) : OnlyChanges [.pwmHeld] s { s with pwm.held := q } := by
  intro f hf
  cases f <;> first | rfl | exact fun _ => rfl | exact absurd (by simp) hf

theorem execDcrvR_opStep {c : Chan} {s t : State} (h : execDcrvR c s = .next t) : OpStep (.dcrvR c) s t :=
  .of_next_advance rfl (s.setDuty_frame _) h

theorem execDcrvI_opStep {c : Chan} {imm : BitVec 16} {s t : State} (h : execDcrvI c imm s = .next t) :
    OpStep (.dcrvI c imm) s t :=
  .of_next_advance rfl (s.setDuty_frame _) h

theorem execDnorm_opStep {s t : State} (h : execDnorm s = .next t) : OpStep .dnorm s t := by
  refine .of_next_advance rfl (fun f hf => ?_) h
  cases f <;> first | rfl | exact fun _ => rfl | exact absurd (by simp [opEffects]) hf

theorem execPwmapply_opStep {c : Chan} {s t : State} (h : execPwmapply c s = .next t) : OpStep (.pwmapply c) s t := by
  unfold execPwmapply at h
  split at h
  · exact .of_trap h
  · split at h
    · have hw := (s.pwmWrite_frame c (s.nduty.get c)).mono (l' := opEffects (.pwmapply c)) (by simp [opEffects])
      refine .of_next_advance rfl (hw.trans fun f hf => ?_) h
      cases f <;> first | rfl | exact fun _ => rfl | exact absurd (by simp [opEffects]) hf
    · exact .of_next_advance rfl (OnlyChanges.refl _ _) h

/-- `PWMACQ` from line to line: lines acquired so far stay acquired when one is refused (R146). -/
theorem acquireLines_opStep {ks : List Chan} {s u t : State} (hu : OnlyChanges [.pwmHeld] s u)
    (h : acquireLines ks u = .next t) : OpStep .pwmacq s t := by
  induction ks generalizing u with
  | nil => exact .of_next_advance rfl hu h
  | cons k ks ih =>
    unfold acquireLines at h
    split at h
    · exact ih (hu.trans (u.setHeld_frame _)) h
    · exact .raises hu (State.trap_faulted h)

theorem execPwmacq_opStep {s t : State} (h : execPwmacq s = .next t) : OpStep .pwmacq s t :=
  acquireLines_opStep (OnlyChanges.refl _ _) h

theorem execPwmrel_opStep {s t : State} (h : execPwmrel s = .next t) : OpStep .pwmrel s t :=
  .of_next_advance rfl (s.setHeld_frame _) h

/-! ## The sequencer's own operations (45_sequencer.md) -/

theorem execCfgchk_opStep {s t : State} (h : execCfgchk s = .next t) : OpStep .cfgchk s t := by
  unfold execCfgchk at h
  split at h
  · exact .of_trap h
  · split at h
    · exact .of_trap h
    · split at h
      · exact .of_trap h
      · exact .of_next_advance rfl (OnlyChanges.refl _ _) h

/-- A jump to a 16-bit target. -/
theorem OpStep.of_jump {i : Instr} {s t : State} {tgt : BitVec 16} (hi : opLoops i = false)
    (h : (.next { s with pc := tgt.toNat } : Result) = .next t) : OpStep i s t := by
  obtain rfl := Host.Outcome.next.inj h
  refine .of_single hi (OnlyChanges.refl _ s) (fun f hf => ?_) (.inr tgt.isLt)
  cases f <;> first | rfl | exact fun _ => rfl | exact absurd (by simp) hf

theorem execJmp_opStep {tgt : BitVec 16} {s t : State} (h : execJmp tgt s = .next t) : OpStep (.jmp tgt) s t :=
  .of_jump rfl h

theorem execBstop_opStep {tgt : BitVec 16} {s t : State} (h : execBstop tgt s = .next t) :
    OpStep (.bstop tgt) s t := by
  unfold execBstop at h
  split at h
  · exact .of_jump rfl h
  · exact .of_next_advance rfl (OnlyChanges.refl _ _) h

/-- One atomic step of `SLEEP`: nothing to wait for, the start of the wait, or its end (R155). -/
theorem execSleep_cases {s t : State} (h : execSleep s = .next t) :
    ((∀ t0, s.phase ≠ .sleeping t0) ∧ t = s.advance) ∨ t = s.startWait .sleeping ∨
      ∃ t0, t = s.endWait t0 s.cfg.sleep.toNat := by
  unfold execSleep at h
  split at h
  · exact .inr (.inr ⟨_, (Host.Outcome.next.inj h).symm⟩)
  · next hp =>
    split at h
    · exact .inl ⟨hp, (Host.Outcome.next.inj h).symm⟩
    · exact .inr (.inl (Host.Outcome.next.inj h).symm)

/-- SEQ in a step of `SLEEP`, but not inside its wait, stands between operations. -/
theorem Phase.eq_idle_of_sleep {p : Phase} (hp : p.of .sleep) (hn : ∀ t0, p ≠ .sleeping t0) : p = .idle := by
  cases p <;> simp_all [Phase.of]

theorem execSleep_opStep {s t : State} (h : execSleep s = .next t) : OpStep .sleep s t := by
  rcases execSleep_cases h with ⟨hn, rfl⟩ | ht | ⟨t0, ht⟩
  · refine .completes (s.advance_frame.mono (by simp [seqFields])) (.inl rfl) fun ⟨ho, hr⟩ => ?_
    have hidle := Phase.eq_idle_of_sleep ho hn
    rw [hidle] at hr
    exact ⟨hidle, hr⟩
  · exact .of_startWait (p := .sleeping) rfl rfl ht
  · exact .of_endWait (by simp [opEffects]) ht

/-- `DBGLINE` appends a record, or does nothing (R157). -/
theorem execDbgline_cases {s t : State} (h : execDbgline s = .next t) :
    t = State.advance { s with debug := s.debug ++ [s.debugRecord] } ∨ t = s.advance := by
  unfold execDbgline at h
  split at h
  · exact .inl (Host.Outcome.next.inj h).symm
  · exact .inr (Host.Outcome.next.inj h).symm

theorem execDbgline_opStep {s t : State} (h : execDbgline s = .next t) : OpStep .dbgline s t := by
  rcases execDbgline_cases h with ht | ht
  · refine .of_advance rfl (fun f hf => ?_) ht
    cases f <;> first | rfl | exact fun _ => rfl | exact absurd (by simp [opEffects]) hf
  · exact .of_advance rfl (OnlyChanges.refl _ _) ht

theorem execHalt_opStep {s t : State} (h : execHalt s = .next t) : OpStep .halt s t :=
  .halts rfl (Host.Outcome.next.inj h).symm

/-! ## Any operation -/

/-- Everything one atomic step of an operation can do. -/
theorem exec_opStep {i : Instr} {s t : State} (h : exec i s = .next t) : OpStep i s t := by
  cases i with
  | openMap => exact execOpen_opStep h
  | rdb off => exact execRdb_opStep h
  | wrb off val => exact execWrb_opStep h
  | rdfifo => exact execRdfifo_opStep h
  | closeMap => exact execClose_opStep h
  | adcinit => exact execAdcinit_opStep h
  | adcdrain => exact execAdcdrain_opStep h
  | adctrig mask => exact execAdctrig_opStep h
  | adcsettle => exact execAdcsettle_opStep h
  | adcharv => exact execAdcharv_opStep h
  | adcstop => exact execAdcstop_opStep h
  | adcshut => exact execAdcshut_opStep h
  | meduR ch => exact execMeduR_opStep h
  | meduI ch imm => exact execMeduI_opStep h
  | modedet => exact execModedet_opStep h
  | rateupd => exact execRateupd_opStep h
  | autostep ch => exact execAutostep_opStep h
  | chinit => exact execChinit_opStep h
  | dcrvR ch => exact execDcrvR_opStep h
  | dcrvI ch imm => exact execDcrvI_opStep h
  | dnorm => exact execDnorm_opStep h
  | pwmapply ch => exact execPwmapply_opStep h
  | pwmacq => exact execPwmacq_opStep h
  | pwmrel => exact execPwmrel_opStep h
  | cfgchk => exact execCfgchk_opStep h
  | jmp tgt => exact execJmp_opStep h
  | bstop tgt => exact execBstop_opStep h
  | sleep => exact execSleep_opStep h
  | dbgline => exact execDbgline_opStep h
  | halt => exact execHalt_opStep h

theorem Faulted.frame {s t : State} (h : Faulted s t) : OnlyChanges (seqFields ++ faultFields) s t := by
  obtain ⟨f, info, rfl⟩ := h
  exact (s.raise_frame f info).mono (by simp [seqFields, faultFields])

/-- The frame of an operation: its own effects, where SEQ stands, and what fault entry writes. -/
theorem exec_frame {i : Instr} {s t : State} (h : exec i s = .next t) :
    OnlyChanges (seqFields ++ faultFields ++ opEffects i) s t := by
  cases exec_opStep h with
  | raises hu ht => exact hu.right.trans ht.frame.left
  | completes hf => exact hf.mono fun f hf => by simp only [List.mem_append] at hf ⊢; tauto
  | proceeds hf => exact hf.mono fun f hf => by simp only [List.mem_append] at hf ⊢; tauto
  | halts hi ht =>
    subst ht
    refine OnlyChanges.left fun f hf => ?_
    cases f <;> first | rfl | exact fun _ => rfl | exact absurd (by simp [seqFields, faultFields]) hf

/-! ## Any step -/

/-- What one step of the block can do, on the state with the turn taken off the script. -/
inductive StepCase (s t : State) : Prop
  | idle (hn : s.nextTurn = .seq) (hr : s.run = .halted) (ht : t = s.dropTurn)
  | illegal (hn : s.nextTurn = .seq) (hr : s.run ≠ .halted) (ht : Faulted s.dropTurn t)
  | executes (hn : s.nextTurn = .seq) (hr : s.run ≠ .halted) {i : Instr} (hi : s.dropTurn.fetch = .ok i)
      (he : exec i s.dropTurn = .next t)
  | conv {k : Chan} {x : Sample} (hn : s.nextTurn = .conv k x) (ht : t = s.dropTurn.convert k x)
  | clkl (hn : s.nextTurn = .clkl) (ht : t = s.dropTurn.latchClock)
  | tick {d : Nat} (hn : s.nextTurn = .tick d) (ht : t = s.dropTurn.tick d)
  | stop (hn : s.nextTurn = .stop) (ht : t = s.dropTurn.requestStop)
  | reset {h : HostLoad} (hn : s.nextTurn = .reset h) (ht : t = s.dropTurn.hostReset h)

theorem step_cases {s t : State} (h : step s = .next t) : StepCase s t := by
  unfold step scheduledStep at h
  cases hn : s.nextTurn with
  | seq =>
    rw [hn] at h
    simp only [takeTurn, seqTurn] at h
    split at h
    · next hr => exact .idle hn hr (Host.Outcome.next.inj h).symm
    · next hr =>
      split at h
      · next i hi => exact .executes hn hr hi h
      · exact .illegal hn hr (State.trap_faulted h)
  | conv k x =>
    rw [hn] at h
    exact .conv hn (Host.Outcome.next.inj h).symm
  | clkl =>
    rw [hn] at h
    exact .clkl hn (Host.Outcome.next.inj h).symm
  | tick d =>
    rw [hn] at h
    exact .tick hn (Host.Outcome.next.inj h).symm
  | stop =>
    rw [hn] at h
    exact .stop hn (Host.Outcome.next.inj h).symm
  | reset load =>
    rw [hn] at h
    exact .reset hn (Host.Outcome.next.inj h).symm

end Sys2Proof.Machine
end

section
/-! The four statements about every step: the memories' canonical form, the auto-mode invariant, the sequencer's
invariant, and what only grows (10_state.md). -/

namespace Sys2Proof

/-! The parts of the parameters' constraints (00_scope.md R5). -/

theorem Params.Legal.speed {p : Params} (h : p.Legal) : p.SpeedLegal := h.2.2.1
theorem Params.Legal.engine {p : Params} (h : p.Legal) : p.EngineLegal := h.2.2.2.1
theorem Params.EngineLegal.fixedStep_le {p : Params} (h : p.EngineLegal) : p.fixedStep ≤ 32767 := h.2.1
theorem Params.EngineLegal.offsetLimitMax_le {p : Params} (h : p.EngineLegal) : p.offsetLimitMax ≤ 32767 := h.2.2.2.1

namespace Machine

/-! ## Which operations write the elements an invariant reads -/

/-- An element that is neither an effect of the operation nor written by the sequencer or a fault entry stays. -/
theorem exec_same {i : Instr} {s t : State} (h : exec i s = .next t) {f : Field} (hi : f ∉ opEffects i)
    (hf : f ∉ seqFields ++ faultFields) : f.Same s t :=
  exec_frame h f fun hm => (List.mem_append.1 hm).elim hf hi

/-- Two lists of elements that both miss `l` miss it together. -/
theorem misses_append {l a b : List Field} (ha : ∀ f ∈ l, f ∉ a) (hb : ¬ ∃ f ∈ l, f ∈ b) : ∀ f ∈ l, f ∉ a ++ b :=
  fun f hf hm => (List.mem_append.1 hm).elim (ha f hf) fun hm => hb ⟨f, hf, hm⟩

/-! ## The memories' canonical form -/

/-- What `Memory.wf` reads. -/
def memoryFields : List Field := [.params, .cfg, .prog, .win, .wptr, .fifo]

theorem Memory.wf_of_onlyChanges {l : List Field} {s t : State} (hs : Memory.wf s = true) (h : OnlyChanges l s t)
    (hl : ∀ f ∈ memoryFields, f ∉ l) : Memory.wf t = true := by
  have same := fun f hf => h f (hl f hf)
  have hp : t.params = s.params := same .params (by decide)
  have hc : t.cfg = s.cfg := same .cfg (by decide)
  exact (Memory.wf_congr (congrArg Cfg.n hc) (same .win (by decide)) (same .wptr (by decide)) (same .fifo (by decide))
    (congrArg Params.fifoDepth hp) (same .prog (by decide))).trans hs

theorem Memory.wf_of_faulted {s t : State} (hs : Memory.wf s = true) (h : Faulted s t) : Memory.wf t = true :=
  Memory.wf_of_onlyChanges hs h.frame (by decide)

theorem Memory.wf_medianUpdate {s : State} (hs : Memory.wf s = true) (c : Chan) (x : Sample) :
    Memory.wf (s.medianUpdate c x) = true := Memory.wf_pushSample hs c x

/-- The operations that write a window or take words off the FIFO. -/
theorem memory_writers {i : Instr} (h : ∃ f ∈ memoryFields, f ∈ opEffects i) :
    i = .rdfifo ∨ i = .adcdrain ∨ i = .adcharv ∨ (∃ c, i = .meduR c) ∨ ∃ c x, i = .meduI c x := by
  revert h
  cases i <;> simp [memoryFields, opEffects, windowFields, engineFields]

theorem execAdcdrain_keepsMemoryWf {s t : State} (hs : Memory.wf s = true) (h : execAdcdrain s = .next t) :
    Memory.wf t = true := by
  rcases execAdcdrain_cases h with hf | ⟨n, rfl⟩ | ⟨n, rfl⟩ | ⟨n, rfl⟩
  · exact Memory.wf_of_faulted hs hf
  · rcases s.drained_eq n with hd | hd <;> rw [hd] <;> exact hs
  · exact hs
  · exact Memory.wf_fifoPop hs

theorem execAdcharv_keepsMemoryWf {s t : State} (hs : Memory.wf s = true) (h : execAdcharv s = .next t) :
    Memory.wf t = true := by
  rcases execAdcharv_cases h with hf | rfl | rfl | rfl
  · exact Memory.wf_of_faulted hs hf
  · exact hs
  · exact hs
  · have hw : Memory.wf (s.fifoPop.harvestWord s.fifoHead) = true :=
      Memory.wf_of_onlyChanges (Memory.wf_fifoPop hs) (State.harvestWord_frame _ _) (by decide)
    exact hw

/-- Every operation keeps the memories' canonical form. -/
theorem exec_keepsMemoryWf {i : Instr} {s t : State} (hs : Memory.wf s = true) (h : exec i s = .next t) :
    Memory.wf t = true := by
  by_cases hw : ∃ f ∈ memoryFields, f ∈ opEffects i
  · rcases memory_writers hw with rfl | rfl | rfl | ⟨c, rfl⟩ | ⟨c, x, rfl⟩
    · rcases execRdfifo_cases h with hf | rfl
      · exact Memory.wf_of_faulted hs hf
      · exact Memory.wf_fifoPop hs
    · exact execAdcdrain_keepsMemoryWf hs h
    · exact execAdcharv_keepsMemoryWf hs h
    · rcases execMeduR_cases h with rfl | rfl
      · exact Memory.wf_medianUpdate hs c _
      · exact hs
    · obtain rfl := enterSample_cases h
      exact Memory.wf_medianUpdate hs c x
  · exact Memory.wf_of_onlyChanges hs (exec_frame h) (misses_append (by decide) hw)

/-- A reset fills the windows anew, whatever stood in them (10_state.md R26). -/
theorem Memory.wf_hostReset {s : State} (hs : Memory.wf s = true) {load : HostLoad} (hl : load.prog.length ≤ 65536) :
    Memory.wf (s.hostReset load) = true := by
  rw [Memory.wf_iff] at hs ⊢
  refine ⟨fun hw c => ?_, hs.2.1, hl⟩
  have hn : 1 ≤ load.cfg.n.toNat ∧ load.cfg.n.toNat ≤ 65535 := of_decide_eq_true hw
  simp only [State.hostReset, Quad.get_fill, initialWindow, if_pos hn, List.length_replicate]
  exact ⟨trivial, hn.1⟩

/-- The turn taken is one of the script's. -/
theorem State.nextTurn_mem {s : State} (h : s.nextTurn ≠ .seq) : s.nextTurn ∈ s.env.script := by
  unfold State.nextTurn at h ⊢
  cases hs : s.env.script with
  | nil => simp [hs] at h
  | cons t ts => simp

theorem LegalScript.of_nextTurn {s : State} (hs : LegalScript s) {load : HostLoad} (hn : s.nextTurn = .reset load) :
    load.prog.length ≤ 65536 :=
  hs load (hn ▸ State.nextTurn_mem (by simp [hn]))

/-- A step takes its turn off the script and writes it in no other way. -/
theorem step_script {s t : State} (h : step s = .next t) : t.env.script = s.env.script.tail := by
  cases step_cases h with
  | idle _ _ ht => rw [ht]; rfl
  | illegal _ _ hf => exact hf.frame .script (by decide)
  | executes _ _ _ he => exact exec_same he (f := .script) (not_mem_opEffects _ (by decide)) (by decide)
  | conv _ ht => subst ht; exact s.dropTurn.convert_frame _ _ .script (by decide)
  | clkl _ ht => rw [ht]; rfl
  | tick _ ht => rw [ht]; rfl
  | stop _ ht => rw [ht]; rfl
  | reset _ ht => rw [ht]; rfl

theorem step_keepsLegalScript {s t : State} (hs : LegalScript s) (h : step s = .next t) : LegalScript t :=
  fun load hm => hs load (List.mem_of_mem_tail (step_script h ▸ hm))

theorem step_keepsMemoryWf {s t : State} (hs : Memory.wf s = true) (hl : LegalScript s) (h : step s = .next t) :
    Memory.wf t = true := by
  have hd : Memory.wf s.dropTurn = true := hs
  cases step_cases h with
  | idle _ _ ht => exact ht ▸ hd
  | illegal _ _ hf => exact Memory.wf_of_faulted hd hf
  | executes _ _ _ he => exact exec_keepsMemoryWf hd he
  | conv _ ht => exact ht ▸ Memory.wf_convert hd _ _
  | clkl _ ht => subst ht; exact hd
  | tick _ ht => subst ht; exact hd
  | stop _ ht => subst ht; exact hd
  | reset hn ht => exact ht ▸ Memory.wf_hostReset hd (hl.of_nextTurn hn)

/-- Settles O14: only the converter lengthens the FIFO, only a median update writes a window, and only a reset loads a
program. -/
theorem stepKeepsMemoryWf : Obligations.StepKeepsMemoryWf :=
  fun _ _ hs hl h => ⟨step_keepsMemoryWf hs hl h, step_keepsLegalScript hl h⟩

/-! ## The auto-mode invariant -/

/-- What `EngineInv` reads. -/
def boundedFields : List Field := [.params, .loopCounter, .loopLimit, .offset, .offsetDelta, .offsetLimit]

theorem EngineInv.of_onlyChanges {l : List Field} {s t : State} (hs : EngineInv s) (h : OnlyChanges l s t)
    (hl : ∀ f ∈ boundedFields, f ∉ l) : EngineInv t := by
  have same := fun f hf => h f (hl f hf)
  have hp : t.params = s.params := same .params (by decide)
  have hc := same .loopCounter (by decide)
  have hlim := same .loopLimit (by decide)
  have ho := same .offset (by decide)
  have hd := same .offsetDelta (by decide)
  have hol := same .offsetLimit (by decide)
  refine ⟨hp ▸ hs.1, fun c => ?_⟩
  have hb := hs.2 c
  unfold AutoState.Bounded at hb ⊢
  rwa [hp, hc c, hlim c, ho c, hd c, hol c]

theorem loFrac_le {p : Params} (hp : p.EngineLegal) (m : Nat) : loFrac p m ≤ m := by
  obtain ⟨-, -, -, -, hpos, hle, -⟩ := hp
  have hm : m * p.fracNum ≤ m * p.fracDen := Nat.mul_le_mul_left m hle
  unfold loFrac
  rw [← Nat.lt_succ_iff, Nat.div_lt_iff_lt_mul (by omega), Nat.succ_mul]
  omega

/-- `LoLoop(m) .. m` is a range for every magnitude (43_auto_mode.md R125). -/
theorem loLoop_bounds {p : Params} (hp : p.EngineLegal) {m : Nat} (hm : 1 ≤ m) : 1 ≤ loLoop p m ∧ loLoop p m ≤ m :=
  ⟨Nat.le_max_left _ _, Nat.max_le.2 ⟨hm, loFrac_le hp m⟩⟩

/-- Whatever the random source answers, a draw lies in its range (10_state.md R35). -/
theorem State.drawn_bounds (s : State) {lo hi : Nat} (h : lo ≤ hi) : lo ≤ s.drawn lo hi ∧ s.drawn lo hi ≤ hi := by
  unfold State.drawn
  split <;> exact inRange_bounds h _

/-- A loop limit drawn for a magnitude of the table is a legal one, and its register holds it (43_auto_mode.md R132,
R134). -/
theorem State.drawn_loopLimit_bounds (s : State) {p : Params} (hp : p.Legal) {m : Nat} (h1 : 1 ≤ m)
    (hm : m ≤ loopMax p) :
    1 ≤ (BitVec.ofNat 32 (s.drawn (loLoop p m) m)).toNat ∧
      (BitVec.ofNat 32 (s.drawn (loLoop p m) m)).toNat ≤ loopMax p := by
  have hlo := loLoop_bounds hp.engine h1
  have hd := s.drawn_bounds hlo.2
  have hlt := loopMax_lt hp.speed
  rw [BitVec.toNat_ofNat, Nat.mod_eq_of_lt (by omega)]
  omega

theorem loopMax_pos {p : Params} (h : p.SpeedLegal) : 1 ≤ loopMax p :=
  (speedLookup_bounds h.1 (by decide) (le_loopMax h)).1

theorem fixedStep_toInt {p : Params} (hp : p.EngineLegal) : (BitVec.ofNat 16 p.fixedStep).toInt = p.fixedStep := by
  have hmax := hp.fixedStep_le
  have hn : (BitVec.ofNat 16 p.fixedStep).toNat = p.fixedStep := by
    rw [BitVec.toNat_ofNat, Nat.mod_eq_of_lt (by omega)]
  rw [BitVec.toInt_eq_toNat_of_lt (by omega), hn]

/-- A channel that starts at offset 0 in the positive direction, with legal limits. -/
theorem AutoState.bounded_of_start {p : Params} {a : AutoState} (hp : p.Legal) (hc : a.loopCounter = 0)
    (ho : a.offset = 0) (hd : a.offsetDelta = BitVec.ofNat 16 p.fixedStep)
    (hol : a.offsetLimit.toNat ≤ p.offsetLimitMax)
    (hl : 1 ≤ a.loopLimit.toNat ∧ a.loopLimit.toNat ≤ loopMax p) : a.Bounded p := by
  unfold AutoState.Bounded
  rw [hc, ho, hd, fixedStep_toInt hp.engine]
  exact ⟨by simp, .inl rfl, hol, hl, Nat.zero_le _⟩

/-- The reset state of a channel (10_state.md R20). -/
theorem AutoState.atReset_bounded {p : Params} (hp : p.Legal) : (AutoState.atReset p).Bounded p :=
  AutoState.bounded_of_start hp rfl rfl rfl (Nat.zero_le _) ⟨le_refl 1, loopMax_pos hp.speed⟩

/-- A timestamp is not part of the invariant. -/
theorem EngineInv.stampOff {s : State} (h : EngineInv s) (c : Chan) (now : Time) :
    EngineInv (s.setAuto c { s.auto.get c with tOffRand := now }) := h.setAuto (h.2 c)

theorem EngineInv.stampLoop {s : State} (h : EngineInv s) (c : Chan) (now : Time) :
    EngineInv (s.setAuto c { s.auto.get c with tLoopRand := now }) := h.setAuto (h.2 c)

/-- A new offset limit drawn for a channel (43_auto_mode.md R130). -/
theorem EngineInv.redrawOffset {u : State} (hu : EngineInv u) (c : Chan) :
    EngineInv (u.afterDraw.setAuto c ((u.afterDraw.auto.get c).limitOffset u.afterDraw.params (u.afterDraw.filt.get c)
      (u.drawn (loOff u.params) u.params.offsetLimitMax))) := by
  have hv := hu.afterDraw
  refine hv.setAuto (AutoState.limitOffset_bounded hv.1.engine (hv.2 c) _ ?_)
  rw [State.afterDraw_params]
  exact (u.drawn_bounds (loFrac_le hu.1.engine _)).2

theorem randOff_keepsEngineInv {s : State} (h : EngineInv s) (c : Chan) (now : Time) : EngineInv (randOff c now s) := by
  unfold randOff
  split
  · have hu := (h.stampOff c now).afterDraw
    dsimp only
    split
    · exact hu.redrawOffset c
    · exact hu
  · exact h

/-- A loop limit inside the table's range in place of another. -/
theorem AutoState.Bounded.withLoopLimit {p : Params} {a : AutoState} (h : a.Bounded p) {l : BitVec 32}
    (hl : 1 ≤ l.toNat ∧ l.toNat ≤ loopMax p) : AutoState.Bounded p { a with loopLimit := l } := by
  obtain ⟨ho, hd, hol, _, hc⟩ := h
  exact ⟨ho, hd, hol, hl, hc⟩

/-- A new loop limit drawn for a channel (43_auto_mode.md R132). -/
theorem EngineInv.redrawLoop {u : State} (hu : EngineInv u) (c : Chan) :
    EngineInv (u.afterDraw.setAuto c { u.afterDraw.auto.get c with
      loopLimit := BitVec.ofNat 32 (u.drawn (loLoop u.params u.rateMagnitude) u.rateMagnitude) }) := by
  have hr := State.rateMagnitude_bounds hu.1.speed
  have hv := hu.afterDraw
  refine hv.setAuto ((hv.2 c).withLoopLimit ?_)
  rw [State.afterDraw_params]
  exact u.drawn_loopLimit_bounds hu.1 hr.1 hr.2

theorem randLoop_keepsEngineInv {s : State} (h : EngineInv s) (c : Chan) (now : Time) :
    EngineInv (randLoop c now s) := by
  unfold randLoop
  split
  · have hu := (h.stampLoop c now).afterDraw
    dsimp only
    split
    · exact hu.redrawLoop c
    · exact hu
  · exact h

theorem State.advanceEngine_keepsEngineInv {s : State} (h : EngineInv s) (c : Chan) :
    EngineInv (s.advanceEngine c) := by
  have ha := State.advancedAuto_bounded h c
  unfold State.advanceEngine
  dsimp only
  split
  · exact randLoop_keepsEngineInv
      (randOff_keepsEngineInv (h.setAuto (AutoState.flip_bounded h.1.engine ha)) c _) c _
  · exact h.setAuto ha

theorem createChannel_keepsEngineInv {s : State} (h : EngineInv s) (c : Chan) : EngineInv (createChannel c s) := by
  have hd := State.drawn_bounds s.afterDraw (loFrac_le h.afterDraw.1.engine s.afterDraw.params.offsetLimitMax)
  have hmax := h.1.engine.offsetLimitMax_le
  refine h.afterDraw.afterDraw.setAuto ?_
  simp only [State.afterDraw_params] at hd ⊢
  refine AutoState.bounded_of_start h.1 rfl rfl rfl ?_
    (s.drawn_loopLimit_bounds h.1 (loopMax_pos h.1.speed) (le_refl _))
  rw [BitVec.toNat_ofNat, loOff, Nat.mod_eq_of_lt (by omega)]
  exact hd.2

theorem createChannels_keepsEngineInv {s : State} (h : EngineInv s) : EngineInv (createChannels s) :=
  createChannel_keepsEngineInv (createChannel_keepsEngineInv (createChannel_keepsEngineInv
    (createChannel_keepsEngineInv h 0) 1) 2) 3

/-- The operations that write what the invariant reads. -/
theorem bounded_writers {i : Instr} (h : ∃ f ∈ boundedFields, f ∈ opEffects i) :
    (∃ c, i = .autostep c) ∨ i = .chinit := by
  revert h
  cases i <;> simp [boundedFields, opEffects, windowFields, engineFields]

/-- Every operation keeps the auto-mode invariant, for every answer of the random source. -/
theorem exec_keepsEngineInv {i : Instr} {s t : State} (hs : EngineInv s) (h : exec i s = .next t) : EngineInv t := by
  by_cases hw : ∃ f ∈ boundedFields, f ∈ opEffects i
  · rcases bounded_writers hw with ⟨c, rfl⟩ | rfl
    · rcases execAutostep_cases h with rfl | rfl
      · exact State.advanceEngine_keepsEngineInv hs c
      · exact hs
    · obtain rfl := execChinit_eq h
      exact createChannels_keepsEngineInv hs
  · exact hs.of_onlyChanges (exec_frame h) (misses_append (by decide) hw)

theorem EngineInv.hostReset {s : State} (h : EngineInv s) (load : HostLoad) : EngineInv (s.hostReset load) := by
  refine ⟨h.1, fun c => ?_⟩
  simp only [State.hostReset, Quad.get_fill]
  exact AutoState.atReset_bounded h.1

/-- Settles O15: of the operations only `AUTOSTEP` and `CHINIT` write what the invariant reads, and each of their steps
keeps it; a reset establishes it. -/
theorem stepKeepsEngineInvariant : Obligations.StepKeepsEngineInvariant := by
  intro s t hs h
  have hd : EngineInv s.dropTurn := hs
  cases step_cases h with
  | idle _ _ ht => exact ht ▸ hd
  | illegal _ _ hf => exact hd.of_onlyChanges hf.frame (by decide)
  | executes _ _ _ he => exact exec_keepsEngineInv hd he
  | conv _ ht => exact ht ▸ hd.of_onlyChanges (State.convert_frame _ _ _) (by decide)
  | clkl _ ht => subst ht; exact hd
  | tick _ ht => subst ht; exact hd
  | stop _ ht => subst ht; exact hd
  | reset _ ht => exact ht ▸ hd.hostReset _

/-! ## The sequencer's invariant -/

/-- What `SequencerInv` reads. -/
def sequencerFields : List Field := [.run, .phase, .pc, .prog, .fault, .exitStatus]

theorem State.fetch_congr {s t : State} (hg : t.prog = s.prog) (hpc : t.pc = s.pc) : t.fetch = s.fetch := by
  simp only [State.fetch, hg, hpc]

/-- A fetched operation lies inside `PROG`. -/
theorem State.fetch_pc_lt {s : State} {i : Instr} (h : s.fetch = .ok i) : s.pc < s.prog.length := by
  unfold State.fetch at h
  split at h
  · exact nomatch h
  · next hw => exact (List.getElem?_eq_some_iff.1 hw).1

theorem SequencerInv.of_onlyChanges {l : List Field} {s t : State} (hs : SequencerInv s) (h : OnlyChanges l s t)
    (hl : ∀ f ∈ sequencerFields, f ∉ l) : SequencerInv t := by
  have same := fun f hf => h f (hl f hf)
  have hr : t.run = s.run := same .run (by decide)
  have hph : t.phase = s.phase := same .phase (by decide)
  have hpc : t.pc = s.pc := same .pc (by decide)
  have hg : t.prog = s.prog := same .prog (by decide)
  have hf : t.faultRegs.fault = s.faultRegs.fault := same .fault (by decide)
  have he : t.faultRegs.exitStatus = s.faultRegs.exitStatus := same .exitStatus (by decide)
  unfold SequencerInv at hs ⊢
  rwa [hr, hph, hf, he, State.fetch_congr hg hpc, hpc, hg]

/-- While the block is not halted, SEQ stands between operations or inside the one at `pc`. -/
theorem SequencerInv.inStep {s : State} (hs : SequencerInv s) (hr : s.run ≠ .halted) {i : Instr}
    (hi : s.fetch = .ok i) : InStep i s := by
  obtain ⟨hwait, -, hph, -⟩ := hs
  constructor
  · rcases hph with hidle | ⟨j, hj, ho⟩
    · rw [hidle]
      trivial
    · obtain rfl : i = j := Except.ok.inj (hi.symm.trans hj)
      exact ho
  · unfold Phase.runState
    split
    · next hw => exact hwait.2 hw
    · next hw =>
      cases hrun : s.run with
      | running => rfl
      | waiting => exact absurd (hwait.1 hrun) hw
      | halted => exact absurd hrun hr

/-- The invariant of a block that runs or waits. -/
theorem SequencerInv.of_inStep {i : Instr} {t : State} (hst : InStep i t) (hph : t.phase = .idle ∨ t.fetch = .ok i)
    (hf : t.faultRegs.fault = 0) (hpc : t.pc ≤ 65536) (hg : t.prog.length ≤ 65536) : SequencerInv t := by
  obtain ⟨ho, hr⟩ := hst
  have hne : t.run ≠ .halted := by
    rw [hr, Phase.runState]
    split <;> simp
  refine ⟨?_, fun h => absurd h hne, hph.imp_right fun h => ⟨i, h, ho⟩, fun _ => hf, fun h => absurd h hne, hpc, hg⟩
  rw [hr, Phase.runState]
  split <;> simp [*]

/-- The invariant of a block that has halted with `exitStatus` equal to `fault`. -/
theorem SequencerInv.of_halted {t : State} (hr : t.run = .halted) (hph : t.phase = .idle)
    (he : t.faultRegs.exitStatus = t.faultRegs.fault) (hpc : t.pc ≤ 65536) (hg : t.prog.length ≤ 65536) :
    SequencerInv t :=
  ⟨by rw [hr, hph]; decide, fun _ => hph, .inl hph, fun h => absurd hr h, fun _ => he, hpc, hg⟩

/-- Fault entry halts between operations, with the fault's code in both registers (60_exceptions.md R176). -/
theorem SequencerInv.of_faulted {s t : State} (hpc : s.pc ≤ 65536) (hg : s.prog.length ≤ 65536) (h : Faulted s t) :
    SequencerInv t := by
  obtain ⟨f, info, rfl⟩ := h
  exact .of_halted rfl rfl rfl hpc hg

/-- An operation that raises nothing leaves `fault`. -/
theorem OnlyChanges.fault {i : Instr} {s t : State} (h : OnlyChanges (seqFields ++ opEffects i) s t) :
    t.faultRegs.fault = s.faultRegs.fault :=
  h .fault fun hm => (List.mem_append.1 hm).elim (by decide) (not_mem_opEffects i (by decide))

/-- Every operation fetched while the block is not halted keeps the sequencer's invariant. -/
theorem exec_keepsSequencerInv {i : Instr} {s t : State} (hs : SequencerInv s) (hr : s.run ≠ .halted)
    (hi : s.fetch = .ok i) (h : exec i s = .next t) : SequencerInv t := by
  have hst := hs.inStep hr hi
  have hlt := State.fetch_pc_lt hi
  obtain ⟨-, -, -, hfault, -, hpc, hg⟩ := hs
  have hprog : t.prog = s.prog := exec_same h (f := .prog) (not_mem_opEffects i (by decide)) (by decide)
  have hgt : t.prog.length ≤ 65536 := hprog ▸ hg
  cases exec_opStep h with
  | raises hu ht =>
    have hupc := hu.unlisted (f := .pc) (by decide)
    have huprog := hu.unlisted (f := .prog) (by decide)
    exact .of_faulted (hupc ▸ hpc) (huprog ▸ hg) ht
  | completes hf hpc' hc =>
    obtain ⟨hidle, hrun⟩ := hc hst
    have hto : InStep i t := by
      unfold InStep
      rw [hidle, hrun]
      exact ⟨trivial, rfl⟩
    exact .of_inStep hto (.inl hidle) (hf.fault.trans (hfault hr)) (by omega) hgt
  | proceeds hf hpc' hc =>
    exact .of_inStep (hc hst) (.inr ((State.fetch_congr hprog hpc').trans hi)) (hf.fault.trans (hfault hr))
      (hpc' ▸ hpc) hgt
  | halts hh ht =>
    subst hh ht
    exact .of_halted rfl (Phase.eq_idle_of_not_loops rfl hst.1) (hfault hr).symm hpc hg

theorem SequencerInv.hostReset (s : State) {load : HostLoad} (hl : load.prog.length ≤ 65536) :
    SequencerInv (s.hostReset load) :=
  .of_inStep (i := .halt) ⟨trivial, rfl⟩ (.inl rfl) rfl (Nat.zero_le _) hl

/-- Settles O16: an operation completes between operations and running, proceeds inside itself at the same `pc`, or
halts; the other agents leave where SEQ stands, and a reset starts it anew. -/
theorem stepKeepsSequencerInvariant : Obligations.StepKeepsSequencerInvariant := by
  intro s t hs hl h
  have hd : SequencerInv s.dropTurn := hs
  cases step_cases h with
  | idle _ _ ht => exact ht ▸ hd
  | illegal _ _ hf =>
    obtain ⟨-, -, -, -, -, hpc, hg⟩ := hd
    exact .of_faulted hpc hg hf
  | executes _ hr hi he => exact exec_keepsSequencerInv hd hr hi he
  | conv _ ht => exact ht ▸ hd.of_onlyChanges (State.convert_frame _ _ _) (by decide)
  | clkl _ ht => subst ht; exact hd
  | tick _ ht => subst ht; exact hd
  | stop _ ht => subst ht; exact hd
  | reset hn ht => exact ht ▸ SequencerInv.hostReset _ (hl.of_nextTurn hn)

/-! ## What only grows -/

/-- Time has not gone back, no sticky flag has fallen, and both streams have at most been appended to. -/
structure Grows (s t : State) : Prop where
  now : s.env.now.toNat ≤ t.env.now.toNat
  stale : s.anomalies.stale = true → t.anomalies.stale = true
  missing : s.anomalies.missing = true → t.anomalies.missing = true
  badTag : s.anomalies.badTag = true → t.anomalies.badTag = true
  dup : s.anomalies.dup = true → t.anomalies.dup = true
  closed : s.closed = true → t.closed = true
  stopReq : s.env.stopReq = true → t.env.stopReq = true
  log : s.log <+: t.log
  debug : s.debug <+: t.debug

/-- What `Grows` reads. -/
def growingFields : List Field := [.now, .aStale, .aMissing, .aBadTag, .aDup, .closed, .stopReq, .log, .debug]

theorem Grows.refl (s : State) : Grows s s :=
  ⟨le_refl _, id, id, id, id, id, id, List.prefix_rfl, List.prefix_rfl⟩

theorem Grows.trans {s t u : State} (h : Grows s t) (h' : Grows t u) : Grows s u where
  now := h.now.trans h'.now
  stale := h'.stale ∘ h.stale
  missing := h'.missing ∘ h.missing
  badTag := h'.badTag ∘ h.badTag
  dup := h'.dup ∘ h.dup
  closed := h'.closed ∘ h.closed
  stopReq := h'.stopReq ∘ h.stopReq
  log := List.IsPrefix.trans h.log h'.log
  debug := List.IsPrefix.trans h.debug h'.debug

theorem Grows.of_onlyChanges {l : List Field} {s t : State} (h : OnlyChanges l s t) (hl : ∀ f ∈ growingFields, f ∉ l) :
    Grows s t := by
  have same := fun f hf => h f (hl f hf)
  have hnow : t.env.now = s.env.now := same .now (by decide)
  have hlog : t.log = s.log := same .log (by decide)
  have hdebug : t.debug = s.debug := same .debug (by decide)
  exact ⟨by rw [hnow], (same .aStale (by decide)).trans, (same .aMissing (by decide)).trans,
    (same .aBadTag (by decide)).trans, (same .aDup (by decide)).trans, (same .closed (by decide)).trans,
    (same .stopReq (by decide)).trans, by rw [hlog], by rw [hdebug]⟩

theorem Grows.raise (s : State) (f : BlockFault) (info : Word) : Grows s (s.raise f info) :=
  { Grows.refl s with log := List.prefix_append _ _ }

theorem Grows.of_faulted {s t : State} (h : Faulted s t) : Grows s t := by
  obtain ⟨f, info, rfl⟩ := h
  exact Grows.raise s f info

theorem Grows.markStale (s : State) (n : Nat) : Grows s (s.markStale n) :=
  { Grows.refl s with stale := fun _ => rfl, log := List.prefix_append _ _ }

theorem Grows.markMissing (s : State) (c : Chan) : Grows s (s.markMissing c) :=
  { Grows.refl s with missing := fun _ => rfl, log := List.prefix_append _ _ }

theorem Grows.markBadTag (s : State) (w : Word) : Grows s (s.markBadTag w) :=
  { Grows.refl s with badTag := fun _ => rfl, log := List.prefix_append _ _ }

theorem Grows.markDup (s : State) (w : Word) : Grows s (s.markDup w) :=
  { Grows.refl s with dup := fun _ => rfl, log := List.prefix_append _ _ }

theorem Grows.harvestWord (s : State) (w : Word) : Grows s (s.harvestWord w) := by
  rcases s.harvestWord_cases w with he | ⟨u, raw, valid, rfl | rfl, he⟩ <;> rw [he]
  · exact Grows.markBadTag s w
  · exact { Grows.refl u with }
  · exact { Grows.markDup s w with }

theorem Grows.fifoPop (s : State) : Grows s s.fifoPop := .of_onlyChanges s.fifoPop_frame (by decide)

theorem Grows.endWait (s : State) (t0 : Time) (delay : Nat) : Grows s (s.endWait t0 delay) := by
  have hf := s.passTime_frame (t0.toNat + delay)
  have hp : Grows s (s.passTime (t0.toNat + delay)) :=
    ⟨(s.passTime_now _).1, (hf .aStale (by decide)).trans, (hf .aMissing (by decide)).trans,
      (hf .aBadTag (by decide)).trans, (hf .aDup (by decide)).trans, (hf .closed (by decide)).trans,
      (hf .stopReq (by decide)).trans, (hf .log (by decide)) ▸ List.prefix_rfl,
      (hf .debug (by decide)) ▸ List.prefix_rfl⟩
  rcases s.endWait_cases t0 delay with ⟨-, he⟩ | ⟨-, he⟩ <;> rw [he] <;> exact { hp with }

theorem execAdcdrain_grows {s t : State} (h : execAdcdrain s = .next t) : Grows s t := by
  rcases execAdcdrain_cases h with hf | ⟨n, rfl⟩ | ⟨n, rfl⟩ | ⟨n, rfl⟩
  · exact .of_faulted hf
  · rcases s.drained_eq n with hd | hd <;> rw [hd]
    · exact { Grows.refl s with }
    · exact { Grows.markStale s n with }
  · exact { Grows.refl s with }
  · exact { Grows.fifoPop s with }

theorem execAdcharv_grows {s t : State} (h : execAdcharv s = .next t) : Grows s t := by
  rcases execAdcharv_cases h with hf | rfl | rfl | rfl
  · exact .of_faulted hf
  · exact { Grows.refl s with }
  · exact { Grows.refl s with }
  · exact (Grows.fifoPop s).trans { Grows.harvestWord s.fifoPop s.fifoHead with }

/-- The operations that write what only grows. -/
theorem growing_writers {i : Instr} (h : ∃ f ∈ growingFields, f ∈ opEffects i) :
    i = .closeMap ∨ i = .adcdrain ∨ i = .adcsettle ∨ i = .adcharv ∨ (∃ c, i = .meduR c) ∨ i = .sleep ∨
      i = .dbgline := by
  revert h
  cases i <;> simp [growingFields, opEffects, windowFields, engineFields]

theorem exec_grows_of_writer {i : Instr} {s t : State} (hw : ∃ f ∈ growingFields, f ∈ opEffects i)
    (h : exec i s = .next t) : Grows s t := by
  rcases growing_writers hw with rfl | rfl | rfl | rfl | ⟨c, rfl⟩ | rfl | rfl
  · rcases execClose_cases h with hf | rfl
    · exact .of_faulted hf
    · exact { Grows.refl s with closed := fun _ => rfl }
  · exact execAdcdrain_grows h
  · rcases execAdcsettle_cases h with rfl | ⟨t0, rfl⟩
    · exact { Grows.refl s with }
    · exact Grows.endWait s t0 _
  · exact execAdcharv_grows h
  · rcases execMeduR_cases h with rfl | rfl
    · exact { Grows.refl s with }
    · exact { Grows.markMissing s c with }
  · rcases execSleep_cases h with ⟨-, rfl⟩ | rfl | ⟨t0, rfl⟩
    · exact { Grows.refl s with }
    · exact { Grows.refl s with }
    · exact Grows.endWait s t0 _
  · rcases execDbgline_cases h with rfl | rfl
    · exact { Grows.refl s with debug := List.prefix_append _ _ }
    · exact { Grows.refl s with }

/-- Every operation lets time, the sticky flags and the streams only grow. -/
theorem exec_grows {i : Instr} {s t : State} (h : exec i s = .next t) : Grows s t := by
  by_cases hw : ∃ f ∈ growingFields, f ∈ opEffects i
  · exact exec_grows_of_writer hw h
  · have hq : ∀ f ∈ growingFields, f ∉ opEffects i := fun f hf hm => hw ⟨f, hf, hm⟩
    have hqs : ∀ f ∈ growingFields, f ∉ seqFields ++ opEffects i := misses_append (by decide) hw
    cases exec_opStep h with
    | raises hu ht => exact (Grows.of_onlyChanges hu hq).trans (.of_faulted ht)
    | completes hf => exact .of_onlyChanges hf hqs
    | proceeds hf => exact .of_onlyChanges hf hqs
    | halts _ ht => exact ht ▸ { Grows.refl s with }

theorem Grows.tick (s : State) (d : Nat) : Grows s (s.tick d) := by
  refine { Grows.refl s with now := ?_ }
  have := s.env.now.isLt
  simp only [State.tick_env, timeOf_toNat]
  omega

/-- Every step but a reset's lets them only grow. -/
theorem step_grows {s t : State} (hn : ∀ h, s.nextTurn ≠ .reset h) (h : step s = .next t) : Grows s t := by
  have hd : Grows s s.dropTurn := .of_onlyChanges s.dropTurn_frame (by decide)
  cases step_cases h with
  | idle _ _ ht => exact ht ▸ hd
  | illegal _ _ hf => exact hd.trans (.of_faulted hf)
  | executes _ _ _ he => exact hd.trans (exec_grows he)
  | conv _ ht => exact ht ▸ hd.trans (.of_onlyChanges (State.convert_frame _ _ _) (by decide))
  | clkl _ ht => subst ht; exact hd.trans { Grows.refl s.dropTurn with }
  | tick _ ht => exact ht ▸ hd.trans (Grows.tick _ _)
  | stop _ ht => subst ht; exact hd.trans { Grows.refl s.dropTurn with stopReq := fun _ => rfl }
  | reset hr => exact absurd hr (hn _)

/-- A reset leaves the time as it is (70_reset_and_hazards.md R191). -/
theorem step_reset_now {s t : State} {load : HostLoad} (hn : s.nextTurn = .reset load) (h : step s = .next t) :
    t.env.now = s.env.now := by
  unfold step scheduledStep at h
  rw [hn] at h
  obtain rfl := Host.Outcome.next.inj h
  rfl

/-- Settles O13: every step but a reset's lets all of it grow, and a reset keeps the time. -/
theorem timeAndStickyFlagsOnlyGrow : Obligations.TimeAndStickyFlagsOnlyGrow := by
  refine ⟨fun s t h => ?_, fun s t hn h => ?_⟩
  · by_cases hn : ∃ load, s.nextTurn = .reset load
    · obtain ⟨load, hn⟩ := hn
      rw [step_reset_now hn h]
    · exact (step_grows (not_exists.1 hn) h).now
  · have g := step_grows hn h
    exact ⟨g.stale, g.missing, g.badTag, g.dup, g.closed, g.stopReq, g.log, g.debug⟩

end Machine

end Sys2Proof
end


section
/-! The FIFO and the configuration over every step (20_memory.md R52, R55): only pending steps fill the FIFO, and only a
reset loads the configuration and the program. -/

namespace Sys2Proof.Machine

/-! ## The other agents' frames -/

theorem State.latchClock_frame (s : State) : OnlyChanges [.clkOn] s s.latchClock := by
  intro f hf
  cases f <;> first | rfl | exact fun _ => rfl | exact absurd (by simp) hf

theorem State.requestStop_frame (s : State) : OnlyChanges [.stopReq] s s.requestStop := by
  intro f hf
  cases f <;> first | rfl | exact fun _ => rfl | exact absurd (by simp) hf

/-! ## The FIFO: only a pending step of the converter pushes (10_state.md R28, 20_memory.md R52) -/

/-- The operations that read `FIFODATA`. -/
theorem fifo_readers {i : Instr} (h : .fifo ∈ opEffects i) : i = .rdfifo ∨ i = .adcdrain ∨ i = .adcharv := by
  revert h
  cases i <;> simp [opEffects, windowFields, engineFields]

theorem Faulted.fifo {s t : State} (h : Faulted s t) : t.adc.fifo = s.adc.fifo := h.frame .fifo (by decide)

theorem State.drained_fifo (s : State) (n : Nat) : (s.drained n).adc.fifo = s.adc.fifo := by
  rcases s.drained_eq n with hd | hd <;> rw [hd] <;> rfl

theorem State.harvestWord_fifo (s : State) (w : Word) : (s.harvestWord w).adc.fifo = s.adc.fifo :=
  s.harvestWord_frame w .fifo (by decide)

/-- An operation leaves the FIFO or takes its head (20_memory.md R45). -/
theorem exec_fifo {i : Instr} {s t : State} (h : exec i s = .next t) :
    t.adc.fifo = s.adc.fifo ∨ t.adc.fifo = s.adc.fifo.tail := by
  by_cases hi : .fifo ∈ opEffects i
  · rcases fifo_readers hi with rfl | rfl | rfl
    · rcases execRdfifo_cases h with hf | rfl
      · exact .inl hf.fifo
      · exact .inr s.fifoPop_fifo
    · rcases execAdcdrain_cases h with hf | ⟨n, rfl⟩ | ⟨n, rfl⟩ | ⟨n, rfl⟩
      · exact .inl hf.fifo
      · exact .inl (s.drained_fifo n)
      · exact .inl rfl
      · exact .inr s.fifoPop_fifo
    · rcases execAdcharv_cases h with hf | rfl | rfl | rfl
      · exact .inl hf.fifo
      · exact .inl rfl
      · exact .inl rfl
      · exact .inr ((State.harvestWord_fifo _ _).trans s.fifoPop_fifo)
  · exact .inl (exec_same h (f := .fifo) hi (by decide))

/-- A converter step that is not pending is not enabled (41_adc_controller.md R92). -/
theorem State.convert_of_not_pending {s : State} {k : Chan} (h : s.adc.pend.get k = false) (x : Sample) :
    s.convert k x = s := by
  have he : s.convEnabled k = false := by simp [State.convEnabled, h]
  rw [State.convert, he]
  rfl

/-- Settles O11: of the operations only `RDFIFO`, `ADCDRAIN` and `ADCHARV` write the FIFO, and they pop; of the other
agents only the converter does, and it needs a pending step. -/
theorem onlyPendingStepsFillTheFifo : Obligations.OnlyPendingStepsFillTheFifo := by
  intro s t h
  refine ⟨fun hseq => ?_, fun hne hp => ?_⟩
  · cases step_cases h with
    | idle _ _ ht => exact .inl (ht ▸ rfl)
    | illegal _ _ hf => exact .inl hf.fifo
    | executes _ _ _ he => exact exec_fifo (s := s.dropTurn) he
    | conv hn | clkl hn | tick hn | stop hn | reset hn => simp [hn] at hseq
  · cases step_cases h with
    | idle hn | illegal hn | executes hn => exact absurd hn hne
    | @conv k x _ ht =>
      have hk : s.dropTurn.adc.pend.get k = false := by simp [hp]
      rw [ht, State.convert_of_not_pending hk]
      exact ⟨rfl, hp⟩
    | clkl _ ht | tick _ ht | stop _ ht | reset _ ht => exact ht ▸ ⟨rfl, hp⟩

/-! ## What only a reset loads (10_state.md R10, R37, 20_memory.md R41) -/

/-- The elements the host sets before it releases reset, `stopReq` apart, and the parameters. -/
def loadedFields : List Field := [.cfg, .prog, .params, .mapOk, .pwmOk]

/-- A step that is no reset leaves them. -/
theorem step_keepsLoaded {s t : State} (hn : ∀ h, s.nextTurn ≠ .reset h) (h : step s = .next t) {f : Field}
    (hf : f ∈ loadedFields) : f.Same s.dropTurn t := by
  have misses {l : List Field} (hl : ∀ g ∈ loadedFields, g ∉ l) (hc : OnlyChanges l s.dropTurn t) :
      f.Same s.dropTurn t := hc f (hl f hf)
  cases step_cases h with
  | idle _ _ ht => exact misses (l := []) (by decide) (ht ▸ OnlyChanges.refl _ _)
  | illegal _ _ hfault => exact misses (by decide) hfault.frame
  | executes _ _ _ he =>
    exact exec_same he (not_mem_opEffects _ ((by decide : ∀ g ∈ loadedFields, g ∈ unlistedFields) f hf))
      ((by decide : ∀ g ∈ loadedFields, g ∉ seqFields ++ faultFields) f hf)
  | conv _ ht => exact misses (by decide) (ht ▸ State.convert_frame _ _ _)
  | clkl _ ht => exact misses (by decide) (ht ▸ State.latchClock_frame _)
  | tick _ ht => exact misses (by decide) (ht ▸ State.tick_frame _ _)
  | stop _ ht => exact misses (by decide) (ht ▸ State.requestStop_frame _)
  | reset hr => exact absurd hr (hn _)

/-- Settles O12: no operation lists one of them among its effects, fault entry writes none, and of the other agents
only a reset does. -/
theorem configurationAndProgramAreConstant : Obligations.ConfigurationAndProgramAreConstant := by
  intro s t hn h
  exact ⟨step_keepsLoaded hn h (f := .cfg) (by decide), step_keepsLoaded hn h (f := .prog) (by decide),
    step_keepsLoaded hn h (f := .params) (by decide), step_keepsLoaded hn h (f := .mapOk) (by decide),
    step_keepsLoaded hn h (f := .pwmOk) (by decide)⟩

end Sys2Proof.Machine
end

section
/-! Byte accesses of the register window (20_memory.md R43, R44, R47, R48): what `RDB` latches and what `WRB` writes,
register by register, and when they fault. -/

namespace Sys2Proof.Machine

/-! ## Fault entry of an operation -/

/-- What `State.raise` does is fault entry (60_exceptions.md R176). -/
theorem State.raise_faultEntered (s : State) (f : BlockFault) (info : Word) :
    FaultEntered f info s (s.raise f info) :=
  ⟨rfl, rfl, rfl, fun h => ⟨if_pos h, if_pos h⟩, rfl, rfl, rfl, s.raise_frame f info⟩

theorem Raises.of_trap {i : Instr} {s : State} {e : Trap} (h : exec i s = s.trap e) : Raises i s e.fault e.info :=
  ⟨s.raise e.fault e.info, h, s.raise_faultEntered _ _⟩

/-- A legal window's offsets are 16-bit numbers (00_scope.md R5). -/
theorem toNat_ofNat_offset {p : Params} (h : p.WindowLegal) {off : Nat} (hoff : off < p.winSize) :
    (BitVec.ofNat 16 off).toNat = off := by
  have := h.2.1
  rw [BitVec.toNat_ofNat, Nat.mod_eq_of_lt (by omega)]

/-! ## Byte reads -/

/-- The only place of `FIFODATA` is its own offset. -/
theorem eq_offFifodata_of_mem {p : Params} {b : Nat} (h : (b, WinReg.fifodata) ∈ regMap p) : b = p.offFifodata := by
  simpa [regMap] using h

/-- Each byte of `FIFODATA` refuses a byte read with `E_SPLITFIFO` (20_memory.md R48). -/
theorem memRead_fifodata {s : State} (hs : s.mapped = true) (h : s.params.WindowLegal) {off : Nat}
    (hlo : s.params.offFifodata ≤ off) (hhi : off < s.params.offFifodata + 4) :
    s.memRead off = .error ⟨.splitFifo, BitVec.ofNat 32 off⟩ := by
  obtain ⟨i, rfl⟩ := Nat.exists_eq_add_of_le hlo
  have hi : i < 4 := by omega
  have hlt := offset_lt_winSize h (fifodata_mem s.params) hi
  have hin : ¬ (s.mapped = false ∨ s.params.winSize ≤ s.params.offFifodata + i) := by simp [hs, hlt]
  rw [State.memRead, if_neg hin, locate_of_mem h (fifodata_mem s.params) hi]

/-- Every other offset of the mapped window can be read, one of no register included (20_memory.md R43). -/
theorem memRead_readable {s : State} (hs : s.mapped = true) {off : Nat} (hlt : off < s.params.winSize)
    (hoff : off < s.params.offFifodata ∨ s.params.offFifodata + 4 ≤ off) : ∃ b, s.memRead off = .ok b := by
  have hin : ¬ (s.mapped = false ∨ s.params.winSize ≤ off) := by simp [hs, hlt]
  rw [State.memRead, if_neg hin]
  split
  · next i hl =>
    obtain ⟨b, hm, hle, hlt', -⟩ := locate_eq_some hl
    have := eq_offFifodata_of_mem hm
    omega
  · exact ⟨_, rfl⟩
  · exact ⟨_, rfl⟩

/-- `RDB` latches the byte that a read answers and changes nothing else (40_register_interface.md R81). -/
theorem completes_rdb {s : State} {off : BitVec 16} {b : WinByte} (h : s.memRead off.toNat = .ok b)
    {P : Byte → Prop} (hP : P (s.latchByte b)) : Completes (.rdb off) s [.rdata, .freeIx] fun t => P t.rdata := by
  have he : exec (.rdb off) s = .next { s with rdata := s.latchByte b }.nextFree.advance := by
    change execRdb off s = _
    rw [execRdb, h]
  refine .of_exec he rfl (fun f hf => ?_) hP
  cases f <;> first | rfl | exact fun _ => rfl | exact absurd (by simp) hf

/-- `RDB` enters the fault that a read answers. -/
theorem raises_rdb {s : State} {off : BitVec 16} {e : Trap} (h : s.memRead off.toNat = .error e) :
    Raises (.rdb off) s e.fault e.info := by
  refine .of_trap ?_
  change execRdb off s = _
  rw [execRdb, h]

/-- The encoding of `RDB`: opcode 0x11, the offset in bits 23:8 (30_encoding.md R60, R62). -/
theorem encode_rdb (off : BitVec 16) : encode (.rdb off) = 0x11000000 ||| off.setWidth 32 <<< 8 := by
  have hlt : off.toNat <<< 8 < 2 ^ 32 := by
    rw [Nat.shiftLeft_eq]
    omega
  have hword : (encode (.rdb off)).toNat = (0x11#8 ++ off).toNat <<< 8 ||| 0 := BitVec.toNat_append _ _
  have hhigh : (0x11#8 ++ off).toNat = 0x11 <<< 16 ||| off.toNat := BitVec.toNat_append _ _
  apply BitVec.eq_of_toNat_eq
  rw [hword, hhigh, Nat.shiftLeft_or_distrib, BitVec.toNat_or, BitVec.toNat_shiftLeft,
    BitVec.toNat_setWidth_of_le (by decide), Nat.mod_eq_of_lt hlt, Nat.or_zero]
  rfl

/-- Settles O20: at a byte of `FIFODATA` the read is refused, and every other offset inside the mapped window has
something to latch. -/
theorem rdbFaultsOrLatchesAByte : Obligations.RdbFaultsOrLatchesAByte := by
  intro s off
  refine ⟨encode_rdb off, ?_⟩
  rw [← BitVec.ofNat_toNat]
  refine ⟨fun h => raises_rdb (memRead_refused h), fun hs hw hlo hhi => raises_rdb (memRead_fifodata hs hw hlo hhi),
    fun hs hlt hoff _ => ?_⟩
  obtain ⟨b, hb⟩ := memRead_readable hs hlt hoff
  exact completes_rdb hb (P := fun _ => True) trivial

/-! ### The bits a read fixes -/

theorem State.latchByte_getLsbD (s : State) (v : Byte) {m : Byte} {j : Nat} (hj : m.getLsbD j = true) :
    (s.latchByte ⟨v, m⟩).getLsbD j = v.getLsbD j := by
  have h8 : j < 8 := BitVec.lt_of_getLsbD hj
  have hm : m[j] = true := hj
  simp [State.latchByte, h8, hm]

/-- A field whose bits are all fixed is latched as it stands in the register. -/
theorem State.latchByte_extract (s : State) (v : Byte) {m : Byte} {lo n : Nat}
    (hm : m.extractLsb' lo n = BitVec.allOnes n) :
    (s.latchByte ⟨v, m⟩).extractLsb' lo n = v.extractLsb' lo n := by
  apply BitVec.eq_of_getLsbD_eq
  intro j hj
  have hmj : m.getLsbD (lo + j) = true := by
    have := congrArg (BitVec.getLsbD · j) hm
    simpa [hj] using this
  simp [hj, s.latchByte_getLsbD v hmj]

/-- A byte whose bits are all fixed is latched as it is. -/
theorem State.latchByte_known (s : State) (v : Byte) : s.latchByte ⟨v, 0xFF⟩ = v := by
  have : (s.latchByte ⟨v, 0xFF⟩).extractLsb' 0 8 = v.extractLsb' 0 8 := s.latchByte_extract _ (by decide)
  simpa using this

/-- A byte read of a mapped register's byte, `FIFODATA` apart, latches that byte's fixed bits (20_memory.md R43). -/
theorem latchesByte_register {s : State} (hs : s.mapped = true) (h : s.params.WindowLegal) {b : Nat} {r : WinReg}
    (hm : (b, r) ∈ regMap s.params) (hr : r ≠ .fifodata) {i : Nat} (hi : i < 4) {P : Byte → Prop}
    (hP : P (s.latchByte (winRead s.adc r i))) : LatchesByte s (b + i) P := by
  have hread := memRead_register hs h hm hr hi
  rw [← toNat_ofNat_offset h (offset_lt_winSize h hm hi)] at hread
  exact completes_rdb hread hP

/-- Byte 0 of a register is the one at its offset. -/
theorem latchesByte_register_zero {s : State} (hs : s.mapped = true) (h : s.params.WindowLegal) {b : Nat} {r : WinReg}
    (hm : (b, r) ∈ regMap s.params) (hr : r ≠ .fifodata) {P : Byte → Prop}
    (hP : P (s.latchByte (winRead s.adc r 0))) : LatchesByte s b P := latchesByte_register hs h hm hr (by decide) hP

theorem latchesByte_readable {s : State} (hs : s.mapped = true) (h : s.params.WindowLegal) {off : Nat}
    (hlt : off < s.params.winSize) (hoff : off < s.params.offFifodata ∨ s.params.offFifodata + 4 ≤ off) :
    LatchesByte s off fun _ => True := by
  obtain ⟨b, hb⟩ := memRead_readable hs hlt hoff
  rw [← toNat_ofNat_offset h hlt] at hb
  exact completes_rdb hb (P := fun _ => True) trivial

/-! The bits of the two registers of single flags. -/

theorem clkctrlByte_en (en : Bool) : (clkctrlByte en).getLsbD 0 = en := by cases en <;> rfl

theorem ctrlByte_fields (adcEn wpOff : Bool) :
    (ctrlByte adcEn wpOff).getLsbD 0 = adcEn ∧ (ctrlByte adcEn wpOff).getLsbD 1 = wpOff := by
  cases adcEn <;> cases wpOff <;> exact ⟨rfl, rfl⟩

/-- Settles O21: the register at each offset is read, and its field's bits are among those the read fixes. -/
theorem rdbReadsTheRegisters : Obligations.RdbReadsTheRegisters := by
  intro s k hs h
  refine ⟨?clkctrl, ?ctrl, ?divLow, ?divHigh, ?stepen, ?modeAvg, ?inSel, ?delay, fun hc => ?count,
    fun _ hlt hoff => latchesByte_readable hs h hlt hoff⟩
  case clkctrl =>
    exact latchesByte_register_zero hs h (clkctrl_mem _) nofun
      ((s.latchByte_getLsbD _ (by decide)).trans (clkctrlByte_en _))
  case ctrl =>
    obtain ⟨h0, h1⟩ := ctrlByte_fields s.adc.adcEn s.adc.wpOff
    exact latchesByte_register_zero hs h (ctrl_mem _) nofun
      ⟨(s.latchByte_getLsbD _ (by decide)).trans h0, (s.latchByte_getLsbD _ (by decide)).trans h1⟩
  case divLow => exact latchesByte_register_zero hs h (clkdiv_mem _) nofun (s.latchByte_known _)
  case divHigh => exact latchesByte_register hs h (clkdiv_mem _) nofun (by decide) (s.latchByte_known _)
  case stepen =>
    exact latchesByte_register_zero hs h (stepen_mem _) nofun
      ((s.latchByte_extract _ (by decide)).trans (extract_low _ _))
  case modeAvg =>
    exact latchesByte_register_zero hs h (stepcfg_mem _ k) nofun
      ⟨(s.latchByte_extract _ (by decide)).trans (extract_low _ _),
        (s.latchByte_extract _ (by decide)).trans (extract_middle _ _ _)⟩
  case inSel =>
    exact latchesByte_register hs h (stepcfg_mem _ k) nofun (by decide)
      ((s.latchByte_extract _ (by decide)).trans (extract_low _ _))
  case delay => exact latchesByte_register_zero hs h (stepdly_mem _ k) nofun (s.latchByte_known _)
  case count =>
    exact latchesByte_register_zero hs h (fifocnt_mem _) nofun
      ((congrArg BitVec.toNat (s.latchByte_known _)).trans (AdcSide.count_toNat hc))

/-! ## Byte writes -/

/-- The elements a byte write of a register's byte may change (20_memory.md R44). -/
def WinReg.writes (r : WinReg) (i : Nat) : List Field :=
  match r, i with
  | .clkctrl, 0 => [.clkReq]
  | .ctrl, 0 => [.adcEn, .wpOff]
  | .clkdiv, 0 => [.clkDiv]
  | .clkdiv, 1 => [.clkDiv]
  | .stepen, 0 => [.stepEn, .pend]
  | .stepcfg _, 0 => [.stepMode, .stepAvg]
  | .stepcfg _, 1 => [.stepInSel]
  | .stepdly _, 0 => [.stepDelay]
  | _, _ => []

theorem winWrite_writes (s : State) (r : WinReg) (i : Nat) (v : Byte) :
    OnlyChanges (r.writes i) s { s with adc := winWrite s.adc r i v } := by
  fun_cases winWrite s.adc r i v
  case case7 | case9 | case11 | case12 => exact OnlyChanges.refl _ s
  all_goals
    intro f hf
    cases f <;> first | rfl | exact fun _ => rfl | exact absurd (by simp [WinReg.writes]) hf

/-- `WRB` writes the byte of the register at its offset (40_register_interface.md R82). -/
theorem writesByte_of_frame {s : State} (hs : s.mapped = true) (h : s.params.WindowLegal) {b : Nat} {r : WinReg}
    (hm : (b, r) ∈ regMap s.params) {i : Nat} (hi : i < 4) {v : Byte} {l : List Field}
    (hl : OnlyChanges l s { s with adc := winWrite s.adc r i v }) {P : AdcSide → Prop}
    (hP : P (winWrite s.adc r i v)) : WritesByte s (b + i) v l P := by
  have he : exec (.wrb (BitVec.ofNat 16 (b + i)) v) s =
      .next (State.advance { s with adc := winWrite s.adc r i v }) := by
    change s.writeThen (BitVec.ofNat 16 (b + i)).toNat v State.advance = _
    rw [State.writeThen, toNat_ofNat_offset h (offset_lt_winSize h hm hi), memWrite_register hs h hm hi]
  refine .of_exec he rfl ?_ hP
  exact (hl.mono fun _ hf => List.mem_cons_of_mem _ hf).trans ((State.advance_frame _).mono (by simp))

/-- A byte write changes no more than the elements its byte of the register holds. -/
theorem writesByte_register {s : State} (hs : s.mapped = true) (h : s.params.WindowLegal) {b : Nat} {r : WinReg}
    (hm : (b, r) ∈ regMap s.params) {i : Nat} (hi : i < 4) {v : Byte} {P : AdcSide → Prop}
    (hP : P (winWrite s.adc r i v)) : WritesByte s (b + i) v (r.writes i) P :=
  writesByte_of_frame hs h hm hi (winWrite_writes s r i v) hP

/-- A byte write without effect completes and changes nothing (20_memory.md R44). -/
theorem writesByte_no_effect {s : State} (hs : s.mapped = true) (h : s.params.WindowLegal) {b : Nat} {r : WinReg}
    (hm : (b, r) ∈ regMap s.params) {i : Nat} (hi : i < 4) {v : Byte} (he : winWrite s.adc r i v = s.adc) :
    WritesByte s (b + i) v [] fun _ => True :=
  writesByte_of_frame hs h hm hi (by rw [he]; exact OnlyChanges.refl _ s) trivial

/-- At an offset of no register, or past the window, a byte write is refused with `E_ACCESS` (20_memory.md R44, R47). -/
theorem memWrite_unassigned {s : State} {off : Nat} (h : ∀ o ∈ s.params.offsets, off < o ∨ o + 4 ≤ off)
    (v : Byte) : s.memWrite off v = .error (accessTrap off) := by
  rcases memWrite_cases s off v with he | ⟨r, i, hl, -⟩
  · exact he
  · simp [locate_eq_none h] at hl

/-- `WRB` enters the fault that a write answers. -/
theorem raises_wrb {s : State} {off : BitVec 16} {v : Byte} {e : Trap} (h : s.memWrite off.toNat v = .error e) :
    Raises (.wrb off v) s e.fault e.info := by
  refine .of_trap ?_
  change s.writeThen off.toNat v State.advance = _
  rw [State.writeThen, h]

/-! ### What a write stores -/

theorem winWrite_stepcfg_low {a : AdcSide} (h : a.wpOff = true) (k : Chan) (v : Byte) :
    winWrite a (.stepcfg k) 0 v =
      { a with stepMode := a.stepMode.set k (v.extractLsb' 0 2), stepAvg := a.stepAvg.set k (v.extractLsb' 2 3) } :=
  if_pos h

theorem winWrite_stepcfg_high {a : AdcSide} (h : a.wpOff = true) (k : Chan) (v : Byte) :
    winWrite a (.stepcfg k) 1 v = { a with stepInSel := a.stepInSel.set k (v.extractLsb' 0 4) } := if_pos h

theorem winWrite_stepdly {a : AdcSide} (h : a.wpOff = true) (k : Chan) (v : Byte) :
    winWrite a (.stepdly k) 0 v = { a with stepDelay := a.stepDelay.set k v } := if_pos h

/-- While the protection is on, no byte of the step configuration is written (20_memory.md R44). -/
theorem winWrite_stepcfg_protected {a : AdcSide} (h : a.wpOff = false) (k : Chan) (i : Nat) (v : Byte) :
    winWrite a (.stepcfg k) i v = a :=
  match i with
  | 0 => if_neg (by simp [h])
  | 1 => if_neg (by simp [h])
  | _ + 2 => rfl

theorem winWrite_stepdly_protected {a : AdcSide} (h : a.wpOff = false) (k : Chan) (i : Nat) (v : Byte) :
    winWrite a (.stepdly k) i v = a :=
  match i with
  | 0 => if_neg (by simp [h])
  | _ + 1 => rfl

/-- Settles O23: a byte of a mapped register writes its own field, the step configuration only while `wpOff`, the other
bytes write nothing, and an offset of no register is refused. -/
theorem wrbWritesTheRegisters : Obligations.WrbWritesTheRegisters := by
  intro s k v hs h
  refine ⟨?clkctrl, ?ctrl, ?divLow, ?divHigh, ?stepen, fun hw => ⟨?cfgLow, ?cfgHigh, ?delay⟩,
    fun hw => ⟨?cfgLowKept, ?cfgHighKept, ?delayKept⟩, fun i hi => ⟨?count, ?data⟩,
    fun i hi h1 => ⟨?upper, fun h2 => ⟨?divUpper, ?cfgUpper⟩⟩, fun off hoff => ?unassigned⟩
  case clkctrl => exact writesByte_register (i := 0) hs h (clkctrl_mem _) (by decide) rfl
  case ctrl => exact writesByte_register (i := 0) hs h (ctrl_mem _) (by decide) ⟨rfl, rfl⟩
  case divLow =>
    exact writesByte_register (i := 0) hs h (clkdiv_mem _) (by decide)
      ⟨extract_low _ _, BitVec.extractLsb'_append_eq_left⟩
  case divHigh =>
    exact writesByte_register (i := 1) hs h (clkdiv_mem _) (by decide)
      ⟨BitVec.extractLsb'_append_eq_left, extract_low _ _⟩
  case stepen =>
    exact writesByte_register (i := 0) hs h (stepen_mem _) (by decide) ⟨rfl, Quad.get_ofFn _⟩
  case cfgLow =>
    refine writesByte_register (i := 0) hs h (stepcfg_mem _ k) (by decide) ?_
    rw [winWrite_stepcfg_low hw]
    exact ⟨Quad.get_set_same _ _ _, Quad.get_set_same _ _ _, .set _ _ _, .set _ _ _⟩
  case cfgHigh =>
    refine writesByte_register (i := 1) hs h (stepcfg_mem _ k) (by decide) ?_
    rw [winWrite_stepcfg_high hw]
    exact ⟨Quad.get_set_same _ _ _, .set _ _ _⟩
  case delay =>
    refine writesByte_register (i := 0) hs h (stepdly_mem _ k) (by decide) ?_
    rw [winWrite_stepdly hw]
    exact ⟨Quad.get_set_same _ _ _, .set _ _ _⟩
  case cfgLowKept =>
    exact writesByte_no_effect (i := 0) hs h (stepcfg_mem _ k) (by decide) (winWrite_stepcfg_protected hw k 0 v)
  case cfgHighKept =>
    exact writesByte_no_effect (i := 1) hs h (stepcfg_mem _ k) (by decide) (winWrite_stepcfg_protected hw k 1 v)
  case delayKept =>
    exact writesByte_no_effect (i := 0) hs h (stepdly_mem _ k) (by decide) (winWrite_stepdly_protected hw k 0 v)
  case count => exact writesByte_no_effect hs h (fifocnt_mem _) hi rfl
  case data => exact writesByte_no_effect hs h (fifodata_mem _) hi rfl
  case upper =>
    obtain ⟨j, rfl⟩ := Nat.exists_eq_add_of_le' h1
    intro o ho
    simp only [List.mem_cons, List.not_mem_nil, or_false] at ho
    rcases ho with rfl | rfl | rfl | rfl
    · exact writesByte_no_effect hs h (clkctrl_mem _) hi rfl
    · exact writesByte_no_effect hs h (ctrl_mem _) hi rfl
    · exact writesByte_no_effect hs h (stepen_mem _) hi rfl
    · exact writesByte_no_effect hs h (stepdly_mem _ k) hi rfl
  case divUpper =>
    obtain ⟨j, rfl⟩ := Nat.exists_eq_add_of_le' h2
    exact writesByte_no_effect hs h (clkdiv_mem _) hi rfl
  case cfgUpper =>
    obtain ⟨j, rfl⟩ := Nat.exists_eq_add_of_le' h2
    exact writesByte_no_effect hs h (stepcfg_mem _ k) hi rfl
  case unassigned =>
    rw [← BitVec.ofNat_toNat]
    exact raises_wrb (memWrite_unassigned hoff v)

end Sys2Proof.Machine
end

section
/-! The opcode map and the decoder (30_encoding.md R60 to R63, R68): a row tests the opcode and one field of
must-be-zero bits, the decoder reads every word by the row of its opcode, and a fetch of no row's word is refused. -/

namespace Sys2Proof

/-! ## The test of a row -/

/-- The mask of a row: it fixes bits 31:24 and the `n` must-be-zero bits from bit `lo` on (30_encoding.md R60, R62). -/
def zeroFieldMask (lo n : Nat) : Word := BitVec.allOnes 32 <<< 24 ||| (BitVec.allOnes n).setWidth 32 <<< lo

theorem zeroFieldMask_getLsbD (lo n : Nat) {i : Nat} (hi : i < 32) :
    (zeroFieldMask lo n).getLsbD i = decide (24 ≤ i ∨ lo ≤ i ∧ i < lo + n) := by
  simp only [zeroFieldMask, BitVec.getLsbD_or, BitVec.getLsbD_shiftLeft, BitVec.getLsbD_setWidth,
    BitVec.getLsbD_allOnes, ← Bool.decide_or, ← Bool.decide_and, ← decide_not, decide_eq_decide]
  omega

/-- A word passes a row's test exactly if its opcode is the row's and its must-be-zero field is 0. -/
theorem and_zeroFieldMask_eq_iff {lo n : Nat} (h : lo + n ≤ 24) (w : Word) (o : BitVec 8) :
    w &&& zeroFieldMask lo n = o ++ 0#24 ↔ opcOf w = o ∧ w.extractLsb' lo n = 0#n := by
  simp only [opcOf, BitVec.eq_of_getLsbD_eq_iff, BitVec.getLsbD_extractLsb', BitVec.getLsbD_and,
    BitVec.getLsbD_append, BitVec.getLsbD_zero]
  constructor
  · intro hw
    refine ⟨fun j hj => ?opcode, fun j hj => ?field⟩
    case opcode =>
      have hbit := hw (24 + j) (by omega)
      simpa [zeroFieldMask_getLsbD lo n (show 24 + j < 32 by omega), hj] using hbit
    case field =>
      have hlt : lo + j < 24 := by omega
      have hbit := hw (lo + j) (by omega)
      simpa [zeroFieldMask_getLsbD lo n (show lo + j < 32 by omega), hj, hlt] using hbit
  · rintro ⟨ho, hz⟩ i hi
    rw [zeroFieldMask_getLsbD lo n hi]
    by_cases h24 : 24 ≤ i
    · obtain ⟨j, rfl⟩ := Nat.exists_eq_add_of_le h24
      have hj : j < 8 := by omega
      simpa [hj] using ho j hj
    · by_cases hin : lo ≤ i ∧ i < lo + n
      · obtain ⟨j, rfl⟩ := Nat.exists_eq_add_of_le hin.1
        have hj : j < n := by omega
        have hbit : w.getLsbD (lo + j) = false := by simpa [hj] using hz j hj
        simp [hbit, show lo + j < 24 by omega]
      · simp [h24, hin, show i < 24 by omega]

/-! ## The opcodes of the map -/

/-- The opcode of a row, its bits 31:24. -/
def OpcodeRow.opcode (r : OpcodeRow) : BitVec 8 := opcOf r.bits

theorem opcodeTable_opcodes : opcodeTable.map (fun r => r.opcode.toNat) =
    [0x10, 0x11, 0x12, 0x13, 0x14, 0x20, 0x21, 0x22, 0x23, 0x24, 0x25, 0x26, 0x30, 0x31, 0x40, 0x41, 0x42, 0x43,
      0x50, 0x51, 0x52, 0x53, 0x54, 0x55, 0x60, 0x61, 0x62, 0x63, 0x64, 0x65] := by decide

/-- The 30 opcode values are distinct, so a row is known by its opcode (30_encoding.md R63). -/
theorem OpcodeRow.eq_of_opcode_eq {r r' : OpcodeRow} (hr : r ∈ opcodeTable) (hr' : r' ∈ opcodeTable)
    (h : r.opcode = r'.opcode) : r = r' := by
  have hnodup : (opcodeTable.map fun r => r.opcode.toNat).Nodup := by
    rw [opcodeTable_opcodes]
    decide
  exact List.inj_on_of_nodup_map hnodup hr hr' (congrArg BitVec.toNat h)

/-- Every row fixes all of bits 31:24, so a word that matches it has its opcode (30_encoding.md R63). -/
theorem OpcodeRow.opcode_of_match {r : OpcodeRow} {w : Word} (hr : r ∈ opcodeTable) (h : w &&& r.mask = r.bits) :
    r.opcode = opcOf w := by
  have hmask : ∀ r ∈ opcodeTable, opcOf r.mask = BitVec.allOnes 8 := by decide
  rw [OpcodeRow.opcode, ← h, opcOf, BitVec.extractLsb'_and, ← opcOf, ← opcOf, hmask r hr, BitVec.and_allOnes]

/-! ## The decoder reads by the map -/

/-- `d` is what the opcode map says of the word `w`: the row of its opcode accepts it, as an operation of that row,
exactly if the row matches; an opcode of no row is refused (30_encoding.md R63, R68). -/
def ReadByTable (w : Word) (d : Except DecodeReject Instr) : Prop :=
  (∃ r ∈ opcodeTable, r.opcode = opcOf w ∧ ∃ i : Instr, i.mnemonic = r.mnemonic ∧
    d = if w &&& r.mask = r.bits then .ok i else .error .mustBeZero) ∨
  ((∀ r ∈ opcodeTable, r.opcode ≠ opcOf w) ∧ d = .error .unassignedOpcode)

/-- The check of one must-be-zero field is the reading of the row with that field's mask. -/
theorem readByTable_whenZero {w : Word} {o : Nat} (ho : (opcOf w).toNat = o) (lo n : Nat) {i : Instr}
    (hlo : lo + n ≤ 24 := by decide)
    (hr : ⟨i.mnemonic, BitVec.ofNat 8 o ++ 0#24, zeroFieldMask lo n⟩ ∈ opcodeTable := by
      simp [Instr.mnemonic, opcodeTable, zeroFieldMask]) :
    ReadByTable w (whenZero (w.extractLsb' lo n) i) := by
  have hopc : opcOf w = BitVec.ofNat 8 o := by rw [← ho, BitVec.ofNat_toNat, BitVec.setWidth_eq]
  refine .inl ⟨_, hr, ?_, i, rfl, ?_⟩
  · rw [hopc, OpcodeRow.opcode, opcOf, BitVec.extractLsb'_append_eq_left]
  · simp only [and_zeroFieldMask_eq_iff hlo, hopc, true_and]
    rfl

/-- The decoder reads every word by the opcode map: one case per opcode, its row that of the opcode and the
must-be-zero field of the format (30_encoding.md R60). -/
theorem readByTable_decode (w : Word) : ReadByTable w (decode w) := by
  unfold decode
  split
  case h_31 =>
    refine .inr ⟨fun r hr ho => ?_, rfl⟩
    have hcode : (opcOf w).toNat ∈ opcodeTable.map fun r => r.opcode.toNat :=
      List.mem_map.2 ⟨r, hr, congrArg BitVec.toNat ho⟩
    rw [opcodeTable_opcodes] at hcode
    simp_all
  case h_2 h => exact readByTable_whenZero h 0 8
  case h_3 h =>
    rw [← whenZero_eq_ok.2 ⟨(BitVec.of_length_zero : w.extractLsb' 0 0 = 0#0), rfl⟩]
    exact readByTable_whenZero h 0 0
  case h_8 h => exact readByTable_whenZero h 4 20
  case h_14 h => exact readByTable_whenZero h 12 10
  case h_20 h => exact readByTable_whenZero h 16 6
  -- format C
  case h_13 h | h_17 h | h_19 h | h_22 h => exact readByTable_whenZero h 0 22
  -- format J
  case h_26 h | h_27 h => exact readByTable_whenZero h 16 8
  -- format Z
  all_goals
    next h => exact readByTable_whenZero h 0 24

/-- A word is decoded only by a row it matches. -/
theorem exists_row_of_decode {w : Word} {i : Instr} (h : decode w = .ok i) :
    ∃ r ∈ opcodeTable, r.mnemonic = i.mnemonic ∧ w &&& r.mask = r.bits := by
  rcases readByTable_decode w with ⟨r, hr, -, j, hj, hd⟩ | ⟨-, hd⟩
  · rw [hd] at h
    split at h
    · next hm => exact ⟨r, hr, Except.ok.inj h ▸ hj.symm, hm⟩
    · exact nomatch h
  · exact nomatch hd.symm.trans h

/-- A word that matches a row decodes to an operation of that row. -/
theorem decode_of_row {w : Word} {r : OpcodeRow} (hr : r ∈ opcodeTable) (h : w &&& r.mask = r.bits) :
    ∃ i, decode w = .ok i ∧ i.mnemonic = r.mnemonic := by
  have ho := OpcodeRow.opcode_of_match hr h
  rcases readByTable_decode w with ⟨r', hr', ho', i, hi, hd⟩ | ⟨hno, -⟩
  · obtain rfl := OpcodeRow.eq_of_opcode_eq hr' hr (ho'.trans ho.symm)
    exact ⟨i, hd.trans (if_pos h), hi⟩
  · exact absurd ho (hno r hr)

/-- Settles O3: the decoder reads by the opcode map, whose rows are told apart by the opcode alone. -/
theorem decoderFollowsOpcodeMap : Obligations.DecoderFollowsOpcodeMap :=
  ⟨fun _ _ => exists_row_of_decode, fun _ _ => decode_of_row, fun _ _ _ hr hr' h h' =>
    OpcodeRow.eq_of_opcode_eq hr hr'
      ((OpcodeRow.opcode_of_match hr h).trans (OpcodeRow.opcode_of_match hr' h').symm)⟩

namespace Machine

/-! ## An illegal fetch -/

/-- A `pc` outside `PROG` is refused before any word is read (45_sequencer.md R150). -/
theorem State.fetch_outside_prog {s : State} (h : s.prog.length ≤ s.pc) :
    s.fetch = .error ⟨.illOp, 0xFFFF0000 ||| BitVec.ofNat 32 s.pc⟩ := by
  rw [State.fetch, List.getElem?_eq_none h]

/-- A word that matches no row is refused with the word (30_encoding.md R68). -/
theorem State.fetch_no_row {s : State} {w : Word} (hw : s.prog[s.pc]? = some w)
    (h : ∀ r ∈ opcodeTable, w &&& r.mask ≠ r.bits) : s.fetch = .error ⟨.illOp, w⟩ := by
  cases hd : decode w with
  | ok i =>
    obtain ⟨r, hr, -, hm⟩ := exists_row_of_decode hd
    exact absurd hm (h r hr)
  | error e => simp only [State.fetch, hw, hd]

/-- In SEQ's turn a block that is not halted enters the fault its fetch answers (45_sequencer.md R150). -/
theorem step_of_fetch_error {s : State} {e : Trap} (hn : s.nextTurn = .seq) (hr : s.run ≠ .halted)
    (h : s.fetch = .error e) : ∃ t, step s = .next t ∧ FaultEntered e.fault e.info s.dropTurn t := by
  have hf : s.dropTurn.fetch = .error e := (State.fetch_congr rfl rfl).trans h
  refine ⟨_, ?_, s.dropTurn.raise_faultEntered e.fault e.info⟩
  rw [step, scheduledStep, hn, takeTurn, seqTurn, if_neg (s.dropTurn_run ▸ hr), hf]
  rfl

/-- Settles O6: both refusals of the fetch are E_ILLOP, and SEQ's turn enters the fault. -/
theorem illegalFetchRaisesIllop : Obligations.IllegalFetchRaisesIllop :=
  fun _ hn hr => ⟨fun h => step_of_fetch_error hn hr (State.fetch_outside_prog h),
    fun _ hw h => step_of_fetch_error hn hr (State.fetch_no_row hw h)⟩

end Machine

end Sys2Proof
end

section
/-! The fields of a FIFO word (30_encoding.md R65). -/

namespace Sys2Proof.Machine

/-- A number shifted to a field's place and cut to a word is the word shifted there. -/
theorem ofNat_shiftLeft (k n : Nat) : BitVec.ofNat 32 (k <<< n) = BitVec.ofNat 32 k <<< n := by
  apply BitVec.eq_of_toNat_eq
  rw [BitVec.toNat_shiftLeft, BitVec.toNat_ofNat, BitVec.toNat_ofNat, Nat.shiftLeft_eq, Nat.shiftLeft_eq,
    Nat.mod_mul_mod]

/-- Settles O35: at the spec's parameters the shifts and remainders of the FIFO word are its bit fields. -/
theorem fifoWordFieldsAtTheirPlace : Obligations.FifoWordFieldsAtTheirPlace := by
  intro p w hdata htag hwidth
  refine ⟨?tag, ?sample, fun k x => ?pack⟩
  case tag => rw [fifoTag, htag, hwidth, BitVec.extractLsb'_toNat]
  case sample => rw [fifoSample, hdata, BitVec.extractLsb']
  case pack => rw [fifoPack, hdata, htag, BitVec.ofNat_or, ofNat_shiftLeft, Nat.shiftLeft_zero, BitVec.ofNat_toNat]

end Sys2Proof.Machine
end

section
/-! The operations of the register interface: `OPEN`, `WRB`, `RDFIFO` and `CLOSE` (40_register_interface.md R80, R82 to
R84), when each faults and all that it changes. -/

namespace Sys2Proof.Machine

/-! ## An operation of one atomic step -/

/-- A step that does `u` and moves `pc` on completes the operation, and changes no more than `u` does. -/
theorem Completes.of_advance {i : Instr} {s u : State} {l : List Field} {P : State → Prop}
    (h : exec i s = .next u.advance) (hu : OnlyChanges l s u) (hpc : .pc ∉ l) (hP : P u.advance) : Completes i s l P := by
  have hpc' : u.pc = s.pc := hu .pc hpc
  refine .of_exec h (congrArg (· + 1) hpc') ?_ hP
  exact (hu.mono fun _ hf => List.mem_cons_of_mem _ hf).trans (u.advance_frame.mono (by simp))

/-! ## The mapping -/

/-- The two flags of the mapping are elements of their own (10_state.md R31). -/
theorem State.setMapping_frame (s : State) (m c : Bool) :
    OnlyChanges [.mapped, .closed] s { s with mapped := m, closed := c } := by
  intro f hf
  cases f <;> first | rfl | exact fun _ => rfl | exact absurd (by simp) hf

theorem State.setMapped_frame (s : State) (m : Bool) : OnlyChanges [.mapped] s { s with mapped := m } := by
  intro f hf
  cases f <;> first | rfl | exact fun _ => rfl | exact absurd (by simp) hf

theorem exec_openMap_refused {s : State} (h : s.mapped = true ∨ s.closed = true) :
    exec .openMap s = s.trap ⟨.access, 0xFFFFFFFF⟩ := if_pos h

theorem exec_openMap_mapFail {s : State} (hm : s.mapped = false) (hc : s.closed = false) (hok : s.env.mapOk = false) :
    exec .openMap s = s.trap ⟨.mapFail, 0⟩ :=
  (if_neg (by simp [hm, hc])).trans (if_pos hok)

theorem exec_openMap_maps {s : State} (hm : s.mapped = false) (hc : s.closed = false) (hok : s.env.mapOk = true) :
    exec .openMap s = .next (State.advance { s with mapped := true }) :=
  (if_neg (by simp [hm, hc])).trans (if_neg (by simp [hok]))

/-- Settles O19: the access test comes before the platform's answer, and only a mapping that both allow is made. -/
theorem openMapsOnce : Obligations.OpenMapsOnce := by
  refine ⟨rfl, fun s => ⟨fun h => ?access, fun hm hc hok => ?mapFail, fun hm hc hok => ?maps⟩⟩
  case access => exact .of_trap (exec_openMap_refused h)
  case mapFail => exact .of_trap (exec_openMap_mapFail hm hc hok)
  case maps => exact .of_advance (exec_openMap_maps hm hc hok) (s.setMapped_frame true) (by decide) rfl

theorem exec_closeMap_unmapped {s : State} (h : s.mapped = false) :
    exec .closeMap s = s.trap ⟨.access, 0xFFFFFFFE⟩ := if_pos h

theorem exec_closeMap_mapped {s : State} (h : s.mapped = true) :
    exec .closeMap s = .next (State.advance { s with mapped := false, closed := true }) := if_neg (by simp [h])

/-- Settles O25: `CLOSE` writes the two flags of the mapping and no register behind it. -/
theorem closeReleasesTheMapping : Obligations.CloseReleasesTheMapping := by
  refine ⟨rfl, fun s => ⟨fun h => ?unmapped, fun h => ?mapped⟩⟩
  case unmapped => exact .of_trap (exec_closeMap_unmapped h)
  case mapped => exact .of_advance (exec_closeMap_mapped h) (s.setMapping_frame false true) (by decide) ⟨rfl, rfl⟩

/-! ## The FIFO read -/

theorem exec_rdfifo_unmapped {s : State} (h : s.mapped = false) :
    exec .rdfifo s = s.trap (accessTrap s.params.offFifodata) := by
  change execRdfifo s = _
  simp [execRdfifo, State.fifoAccess, h]

theorem exec_rdfifo_mapped {s : State} (h : s.mapped = true) :
    exec .rdfifo s = .next (State.advance { s.fifoPop with fdata := s.fifoHead }) := by
  change execRdfifo s = _
  simp [execRdfifo, State.fifoAccess, h]

theorem State.setFdata_frame (s : State) (w : Word) : OnlyChanges [.fdata] s { s with fdata := w } := by
  intro f hf
  cases f <;> first | rfl | exact fun _ => rfl | exact absurd (by simp) hf

theorem State.setFifo_frame (s : State) (ws : List Word) : OnlyChanges [.fifo] s { s with adc.fifo := ws } := by
  intro f hf
  cases f <;> first | rfl | exact fun _ => rfl | exact absurd (by simp) hf

/-- `RDFIFO` of a mapped window changes `fdata` and what the pop changes (R83). -/
theorem completes_rdfifo {s : State} {l : List Field} {P : State → Prop} (hs : s.mapped = true)
    (hl : OnlyChanges l s s.fifoPop) (hpc : .pc ∉ l) (hP : P (State.advance { s.fifoPop with fdata := s.fifoHead })) :
    Completes .rdfifo s (.fdata :: l) P := by
  refine .of_advance (exec_rdfifo_mapped hs) ?_ (by simp [hpc]) hP
  exact (hl.mono fun _ hf => List.mem_cons_of_mem _ hf).trans ((s.fifoPop.setFdata_frame _).mono (by simp))

/-- Settles O24: the head latched is the word popped; without one only the free value's counter moves beside `fdata`. -/
theorem rdfifoPopsTheHead : Obligations.RdfifoPopsTheHead := by
  refine ⟨rfl, fun s => ⟨fun h => ?unmapped, fun h w rest hw => ?head, fun h hnil => ?empty⟩⟩
  case unmapped => exact .of_trap (exec_rdfifo_unmapped h)
  case head =>
    obtain ⟨hpop, hhead⟩ := State.fifoPop_cons hw
    refine completes_rdfifo h (hpop ▸ s.setFifo_frame rest) (by decide) ⟨hhead, ?_⟩
    exact s.fifoPop_fifo.trans (congrArg List.tail hw)
  case empty =>
    refine completes_rdfifo h (State.fifoPop_nil hnil ▸ s.nextFree_frame) (by decide) ?_
    exact s.fifoPop_fifo.trans (congrArg List.tail hnil)

/-! ## The byte write -/

/-- The encoding of `WRB`: opcode 0x12, the offset in bits 23:8, the byte below (30_encoding.md R60, R62). -/
theorem encode_wrb (off : BitVec 16) (v : Byte) :
    encode (.wrb off v) = 0x12000000 ||| off.setWidth 32 <<< 8 ||| v.setWidth 32 := by
  calc encode (.wrb off v) = (0x12#8 ++ off ++ v).setWidth 32 := (BitVec.setWidth_eq _).symm
    _ = (0x12#8).setWidth 32 <<< (16 + 8) ||| off.setWidth 32 <<< 8 ||| v.setWidth 32 :=
      BitVec.setWidth_append_append_eq_shiftLeft_setWidth_or

/-- Each byte of a register is a place `locate` knows (20_memory.md R42). -/
theorem locate_of_mem_offsets {p : Params} {off : Nat} (h : ∃ o ∈ p.offsets, o ≤ off ∧ off < o + 4) :
    ∃ r i, locate p off = some (r, i) := by
  obtain ⟨o, ho, hin⟩ := h
  rw [← regMap_offsets] at ho
  obtain ⟨e, he, rfl⟩ := List.mem_map.1 ho
  have hsome : (locate p off).isSome := List.findSome?_isSome_iff.2 ⟨e, he, by rw [if_pos hin]; rfl⟩
  obtain ⟨⟨r, i⟩, hl⟩ := Option.isSome_iff_exists.1 hsome
  exact ⟨r, i, hl⟩

/-- A byte of a register inside the mapped window can be written (20_memory.md R44, R47). -/
theorem memWrite_assigned {s : State} {off : Nat} (hs : s.mapped = true) (hlt : off < s.params.winSize)
    (h : ∃ o ∈ s.params.offsets, o ≤ off ∧ off < o + 4) (v : Byte) :
    ∃ r i, s.memWrite off v = .ok { s with adc := winWrite s.adc r i v } := by
  obtain ⟨r, i, hl⟩ := locate_of_mem_offsets h
  have hin : ¬ (s.mapped = false ∨ s.params.winSize ≤ off) := by simp [hs, hlt]
  refine ⟨r, i, ?_⟩
  rw [State.memWrite, if_neg hin, hl]

theorem exec_wrb_of_memWrite {s t : State} {off : BitVec 16} {v : Byte} (h : s.memWrite off.toNat v = .ok t) :
    exec (.wrb off v) s = .next t.advance := by
  change s.writeThen off.toNat v State.advance = _
  rw [State.writeThen, h]

/-- Settles O22: a write to a register's byte inside the mapped window changes the backing state alone, and every other
write is refused. -/
theorem wrbFaultsOrWritesTheWindow : Obligations.WrbFaultsOrWritesTheWindow := by
  intro s off v
  refine ⟨encode_wrb off v, fun h => ?faults, fun hs hlt hreg => ?writes⟩
  case faults =>
    have he : s.memWrite off.toNat v = .error (accessTrap off.toNat) := by
      rcases h with h | h | h
      · exact memWrite_refused (.inl h) v
      · exact memWrite_refused (.inr h) v
      · exact memWrite_unassigned h v
    rw [← BitVec.ofNat_toNat]
    exact raises_wrb he
  case writes =>
    obtain ⟨r, i, hw⟩ := memWrite_assigned hs hlt hreg v
    exact .of_advance (exec_wrb_of_memWrite hw) (winWrite_frame s r i v) (by decide) trivial

end Sys2Proof.Machine
end

section
/-! The turns of the agents beside SEQ: the converter's push, the latch, time and the stop request (41_adc_controller.md
R92, R93, 10_state.md R36, R37). -/

namespace Sys2Proof.Machine

/-- A step is the next turn, taken on the state with that turn off the script (20_memory.md R51). -/
theorem step_of_nextTurn {s : State} {t : Turn} (h : s.nextTurn = t) : step s = takeTurn t s.dropTurn := by
  rw [step, scheduledStep, h]

/-! ## The converter -/

/-- The six conditions of R92. -/
theorem State.convEnabled_iff (s : State) (k : Chan) : s.convEnabled k = true ↔
    s.adc.adcEn = true ∧ s.adc.clkOn = true ∧ s.adc.stepEn.getLsbD k.val = true ∧ s.adc.pend.get k = true ∧
      s.adc.stepMode.get k = 0 ∧ s.adc.fifo.length < s.params.fifoDepth := by
  simp only [State.convEnabled, Bool.and_eq_true, decide_eq_true_eq, and_assoc]

/-- The converter is not enabled when one of them fails. -/
theorem State.not_convEnabled_iff (s : State) (k : Chan) : ¬ s.convEnabled k = true ↔
    s.adc.adcEn = false ∨ s.adc.clkOn = false ∨ s.adc.stepEn.getLsbD k.val = false ∨ s.adc.pend.get k = false ∨
      s.adc.stepMode.get k ≠ 0 ∨ s.params.fifoDepth ≤ s.adc.fifo.length := by
  simp only [convEnabled_iff, not_and_or, Bool.not_eq_true, not_lt, ne_eq]

theorem State.convert_of_enabled {s : State} {k : Chan} (h : s.convEnabled k = true) (x : Sample) :
    s.convert k x =
      { s with adc.fifo := s.adc.fifo ++ [fifoPack s.params k x], adc.pend := s.adc.pend.set k false } := if_pos h

theorem State.convert_of_not_enabled {s : State} {k : Chan} (h : ¬ s.convEnabled k = true) (x : Sample) :
    s.convert k x = s := if_neg h

/-- Two fields that do not overlap are or-ed as they are added, whichever is the upper one. -/
theorem or_shift_eq_add {a b n m x y : Nat} (hx : x < 2 ^ n) (hy : y < 2 ^ m) (h : a + n ≤ b ∨ b + m ≤ a) :
    y <<< b ||| x <<< a = y * 2 ^ b + x * 2 ^ a := by
  have below {c d l z : Nat} (hz : z < 2 ^ l) (hcd : c + l ≤ d) : z <<< c < 2 ^ d :=
    lt_of_lt_of_le (Nat.shiftLeft_lt hz) (Nat.pow_le_pow_right Nat.zero_lt_two (by omega))
  rw [← Nat.shiftLeft_eq, ← Nat.shiftLeft_eq]
  rcases h with h | h
  · exact (Nat.shiftLeft_add_eq_or_of_lt (below hx h) y).symm
  · rw [Nat.lor_comm, Nat.add_comm]
    exact (Nat.shiftLeft_add_eq_or_of_lt (below hy h) x).symm

/-- A packed word is the sum of its fields at their places, its other bits 0 (41_adc_controller.md R92). -/
theorem fifoPack_toNat_eq_add {p : Params} (h : p.FifoLegal) (k : Chan) (x : Sample) :
    (fifoPack p k x).toNat = k.val * 2 ^ p.tagLo + x.toNat * 2 ^ p.dataLo := by
  rw [fifoPack_toNat h]
  obtain ⟨-, -, htag, -, -, hdisjoint⟩ := h
  have hk : k.val < 2 ^ p.tagW := lt_of_lt_of_le k.isLt (Nat.pow_le_pow_right Nat.zero_lt_two htag)
  exact or_shift_eq_add x.isLt hk hdisjoint

/-- Settles O9: the six conditions are `convEnabled`; the word pushed is the packed one, whose fields read back. -/
theorem converterPushesOneTaggedWord : Obligations.ConverterPushesOneTaggedWord := by
  intro s k x hn hp
  have hstep : step s = .next (s.dropTurn.convert k x) := step_of_nextTurn hn
  rw [hstep]
  refine ⟨fun hadc hclk hen hpend hmode hroom => ?pushes, fun h => ?idle⟩
  case pushes =>
    have hc := State.convert_of_enabled ((s.dropTurn.convEnabled_iff k).2 ⟨hadc, hclk, hen, hpend, hmode, hroom⟩) x
    refine ⟨_, fifoPack s.params k x, rfl, by rw [hc]; rfl, fifoPack_toNat_eq_add hp k x, fifoTag_fifoPack hp k x,
      fifoSample_fifoPack hp k x, by rw [hc]; exact Quad.get_set_same _ _ _, by rw [hc]; exact .set _ _ _, ?_⟩
    exact (s.dropTurn_frame.mono (by simp)).trans ((s.dropTurn.convert_frame k x).mono (by simp))
  case idle => rw [State.convert_of_not_enabled ((s.dropTurn.not_convEnabled_iff k).2 h)]

/-! ## The latch, time and the stop request -/

/-- Inside the 64-bit range time advances by the stated amount (10_state.md R36). -/
theorem State.tick_now_toNat {s : State} {d : Nat} (h : s.env.now.toNat + d < 2 ^ 64) :
    (s.tick d).env.now.toNat = s.env.now.toNat + d := by
  rw [State.tick_env, timeOf_toNat]
  exact min_eq_left (Nat.le_pred_of_lt h)

/-- A turn that changes one element of the rest changes it and the script. -/
theorem OnlyChanges.after_dropTurn {s t : State} {f : Field} (h : OnlyChanges [f] s.dropTurn t) :
    OnlyChanges [f, .script] s t :=
  (s.dropTurn_frame.mono (by simp)).trans (h.mono (by simp))

/-- Settles O10: each of the three turns is its agent's one write, after the turn is taken off the script. -/
theorem latchTimeAndStopTurns : Obligations.LatchTimeAndStopTurns := by
  refine fun s => ⟨fun hn => ?latch, fun d hn hd => ?time, fun hn => ?stop⟩
  case latch => exact ⟨s.dropTurn.latchClock, step_of_nextTurn hn, rfl, (State.latchClock_frame _).after_dropTurn⟩
  case time =>
    exact ⟨s.dropTurn.tick d, step_of_nextTurn hn, State.tick_now_toNat hd, (State.tick_frame _ d).after_dropTurn⟩
  case stop => exact ⟨s.dropTurn.requestStop, step_of_nextTurn hn, rfl, (State.requestStop_frame _).after_dropTurn⟩

end Sys2Proof.Machine
end

section
/-! The ADC controller's operations at their register accesses (41_adc_controller.md R90, R95, R98 to R102): the byte
writes and reads that the mapped window answers, the tests and the clock request of ADCINIT, ADCTRIG, ADCSTOP and
ADCSHUT, the wait of ADCSETTLE, and the fault without a mapping. -/

namespace Sys2Proof.Machine

/-! ## A byte write as an atomic step -/

/-- A byte write to a mapped register goes on from the state with the byte written (20_memory.md R44). -/
theorem State.writeThen_register {s : State} (hs : s.mapped = true) (h : s.params.WindowLegal) {b : Nat} {r : WinReg}
    (hm : (b, r) ∈ regMap s.params) {i : Nat} (hi : i < 4) (v : Byte) (k : State → State) :
    s.writeThen (b + i) v k = .next (k { s with adc := winWrite s.adc r i v }) := by
  rw [State.writeThen, memWrite_register hs h hm hi]

theorem State.writeThen_register_zero {s : State} (hs : s.mapped = true) (h : s.params.WindowLegal) {b : Nat}
    {r : WinReg} (hm : (b, r) ∈ regMap s.params) (v : Byte) (k : State → State) :
    s.writeThen b v k = .next (k { s with adc := winWrite s.adc r 0 v }) :=
  writeThen_register hs h hm (by decide : 0 < 4) v k

/-- Without a mapping it enters E_ACCESS (20_memory.md R47). -/
theorem State.writeThen_unmapped {s : State} (hs : s.mapped = false) (off : Nat) (v : Byte) (k : State → State) :
    s.writeThen off v k = s.trap (accessTrap off) := by
  rw [State.writeThen, memWrite_refused (.inl hs)]

theorem Raises.of_writeThen {i : Instr} {s : State} {off : Nat} {v : Byte} {k : State → State}
    (he : exec i s = s.writeThen off v k) (hs : s.mapped = false) : Raises i s .access (BitVec.ofNat 32 off) :=
  .of_trap (he.trans (State.writeThen_unmapped hs off v k))

/-! ## The start of ADCINIT (R95) -/

theorem exec_adcinit_start {s : State} (h : s.phase = .idle) : exec .adcinit s = adcinitStart s := by
  change execAdcinit s = _
  rw [execAdcinit, h]

/-- The averaging code is defined exactly for the five counts (30_encoding.md R66). -/
theorem avgCode_eq_none_iff (n : BitVec 8) : avgCode n = none ↔ n.toNat ∉ [1, 2, 4, 8, 16] := by
  unfold avgCode
  split <;> simp_all

/-- The averaging code is the count's logarithm to base 2 (30_encoding.md R66). -/
theorem two_pow_avgCode {n : BitVec 8} {code : BitVec 3} (h : avgCode n = some code) : 2 ^ code.toNat = n.toNat := by
  unfold avgCode at h
  split at h <;> simp_all <;> (subst h; rfl)

theorem exists_avgCode {n : BitVec 8} (h : n.toNat ∈ [1, 2, 4, 8, 16]) : ∃ code, avgCode n = some code :=
  Option.ne_none_iff_exists'.1 fun hn => (avgCode_eq_none_iff n).1 hn h

theorem adcinitStart_badDivider {s : State} (h : 65534 < s.cfg.clkDiv.toNat) :
    adcinitStart s = s.trap ⟨.badCfg, 1⟩ :=
  if_pos h

theorem adcinitStart_badAverage {s : State} (hdiv : s.cfg.clkDiv.toNat ≤ 65534)
    (havg : s.cfg.avg.toNat ∉ [1, 2, 4, 8, 16]) : adcinitStart s = s.trap ⟨.badCfg, 2⟩ :=
  (if_neg (Nat.not_lt.2 hdiv)).trans (if_pos ((avgCode_eq_none_iff _).2 havg))

/-- With a legal configuration ADCINIT's first access is the clock request. -/
theorem adcinitStart_legal {s : State} (hdiv : s.cfg.clkDiv.toNat ≤ 65534)
    (havg : s.cfg.avg.toNat ∈ [1, 2, 4, 8, 16]) :
    adcinitStart s = s.writeThen s.params.offClkctrl (clkctrlByte true) fun t =>
      { t with run := .waiting, phase := .adcinitPoll 0 } :=
  (if_neg (Nat.not_lt.2 hdiv)).trans (if_neg fun hn => (avgCode_eq_none_iff _).1 hn havg)

/-- Settles O27: the two tests come in their order before the write of `CLKCTRL`, which sets the request alone. -/
theorem adcinitTestsThenRequestsTheClock : Obligations.AdcinitTestsThenRequestsTheClock := by
  refine ⟨rfl, fun s hp => ⟨fun hdiv => ?divider, fun hdiv havg => ?average, fun hdiv havg hs h => ?request⟩⟩
  case divider => exact .of_trap ((exec_adcinit_start hp).trans (adcinitStart_badDivider hdiv))
  case average => exact .of_trap ((exec_adcinit_start hp).trans (adcinitStart_badAverage hdiv havg))
  case request =>
    have he := ((exec_adcinit_start hp).trans (adcinitStart_legal hdiv havg)).trans
      (State.writeThen_register_zero hs h (clkctrl_mem _) _ _)
    refine ⟨_, he, ?_, clkctrlByte_en true, rfl, rfl⟩
    exact ((winWrite_writes s .clkctrl 0 (clkctrlByte true)).mono (by simp [WinReg.writes])).trans
      ((State.moveSeq_frame _ _ _).mono (by simp))

/-! ## ADCTRIG, ADCSTOP, ADCSHUT (R98, R101, R102) -/

/-- An operation that is one byte write to a mapped register completes with that byte's change. -/
theorem Completes.of_writeThen {i : Instr} {s u : State} {b : Nat} {r : WinReg} {v : Byte} {l : List Field}
    {P : State → Prop} (he : exec i s = u.writeThen b v State.advance) (hs : u.mapped = true)
    (h : u.params.WindowLegal) (hm : (b, r) ∈ regMap u.params)
    (hl : OnlyChanges l s { u with adc := winWrite u.adc r 0 v }) (hpc : .pc ∉ l)
    (hP : P (State.advance { u with adc := winWrite u.adc r 0 v })) : Completes i s l P :=
  .of_advance (he.trans (State.writeThen_register_zero hs h hm v _)) hl hpc hP

theorem State.setRawValid_frame (s : State) (q : Quad Bool) : OnlyChanges [.rawValid] s { s with rawValid := q } := by
  intro f hf
  cases f <;> first | rfl | exact fun _ => rfl | exact absurd (by simp) hf

/-- The byte of `STEPEN` carries the mask (10_state.md R18). -/
theorem stepenByte_getLsbD (mask : BitVec 4) (k : Chan) : (stepenByte mask).getLsbD k.val = mask.getLsbD k.val := by
  rw [stepenByte, BitVec.getLsbD_append, if_pos k.isLt]

/-- The write of `STEPEN` enables the mask's steps and makes exactly those pending (41_adc_controller.md R91). -/
theorem writeStepen_stepenByte (a : AdcSide) (mask : BitVec 4) :
    (a.writeStepen (stepenByte mask)).stepEn = mask ∧
      ∀ k, (a.writeStepen (stepenByte mask)).pend.get k = mask.getLsbD k.val :=
  ⟨extract_low _ _, fun k => (Quad.get_ofFn _ k).trans (stepenByte_getLsbD mask k)⟩

/-- The write of `ADCEN` keeps the register's other field, so it changes `adcEn` alone (20_memory.md R46). -/
theorem winWrite_adcEn (a : AdcSide) (en : Bool) :
    winWrite a .ctrl 0 (ctrlByte en a.wpOff) = { a with adcEn := en } := by
  obtain ⟨hen, hwp⟩ := ctrlByte_fields en a.wpOff
  simp only [winWrite, hen, hwp]

/-- The write of `WPOFF` changes `wpOff` alone, likewise. -/
theorem winWrite_wpOff (a : AdcSide) (off : Bool) :
    winWrite a .ctrl 0 (ctrlByte a.adcEn off) = { a with wpOff := off } := by
  obtain ⟨hen, hwp⟩ := ctrlByte_fields a.adcEn off
  simp only [winWrite, hen, hwp]

theorem State.setAdcEn_frame (s : State) (en : Bool) : OnlyChanges [.adcEn] s { s with adc.adcEn := en } := by
  intro f hf
  cases f <;> first | rfl | exact fun _ => rfl | exact absurd (by simp) hf

/-- The encoding of `ADCTRIG`: opcode 0x22, the mask in bits 3:0 (30_encoding.md R60, R62). -/
theorem encode_adctrig (mask : BitVec 4) : encode (.adctrig mask) = 0x22000000 ||| mask.setWidth 32 := by
  calc encode (.adctrig mask) = (0x22#8 ++ 0#20 ++ mask).setWidth 32 := (BitVec.setWidth_eq _).symm
    _ = (0x22#8).setWidth 32 <<< (20 + 4) ||| (0#20).setWidth 32 <<< 4 ||| mask.setWidth 32 :=
      BitVec.setWidth_append_append_eq_shiftLeft_setWidth_or

/-- Settles O32: two writes of `STEPEN` and one of `CTRL`, each with its own byte's change, or refused. -/
theorem triggerStopAndShutdown : Obligations.TriggerStopAndShutdown := by
  refine ⟨rfl, rfl, fun s mask => ⟨encode_adctrig mask, fun hs h => ⟨?trig, ?stop, ?shut⟩,
    fun hs => ⟨.of_writeThen rfl hs, .of_writeThen rfl hs⟩⟩⟩
  case trig =>
    obtain ⟨hen, hpend⟩ := writeStepen_stepenByte s.adc mask
    refine .of_writeThen (u := { s with rawValid := .fill false }) rfl hs h (stepen_mem _) ?_ (by decide)
      ⟨hen, fun k => ⟨Quad.get_fill _ k, hpend k⟩⟩
    exact ((s.setRawValid_frame _).mono (by simp)).trans
      ((winWrite_writes _ .stepen 0 _).mono (by simp [WinReg.writes]))
  case stop =>
    obtain ⟨hen, hpend⟩ := writeStepen_stepenByte s.adc 0
    exact .of_writeThen rfl hs h (stepen_mem _) (winWrite_writes s .stepen 0 _) (by decide)
      ⟨hen, fun k => (hpend k).trans (BitVec.getLsbD_zero)⟩
  case shut =>
    refine .of_writeThen rfl hs h (ctrl_mem _) ?_ (by decide) (ctrlByte_fields false _).1
    rw [winWrite_adcEn]
    exact s.setAdcEn_frame false

/-! ## ADCSETTLE (R99) -/

theorem exec_adcsettle_start {s : State} (h : s.phase = .idle) : exec .adcsettle s = .next (s.startWait .settling) := by
  change execAdcsettle s = _
  rw [execAdcsettle, h]

theorem exec_adcsettle_wait {s : State} {t0 : Time} (h : s.phase = .settling t0) :
    exec .adcsettle s = .next (s.endWait t0 s.params.settleDelay) := by
  change execAdcsettle s = _
  rw [execAdcsettle, h]

/-- Inside the time input's range a wait ends: RUNNING, `pc` moved on, and the instant reached (10_state.md R36). -/
theorem State.endWait_of_lt (s : State) {t0 : Time} {delay : Nat} (h : t0.toNat + delay < 2 ^ 64) :
    s.endWait t0 delay = State.complete { s.passTime (t0.toNat + delay) with run := .running } := by
  rcases s.endWait_cases t0 delay with ⟨-, he⟩ | ⟨hge, -⟩
  · exact he
  · exact absurd h (Nat.not_lt.2 hge)

/-- Settles O33: the wait starts by noting the time and ends by the passing of time, and writes nothing else. -/
theorem adcsettleWaitsTheSettleDelay : Obligations.AdcsettleWaitsTheSettleDelay := by
  refine ⟨rfl, fun s => ⟨fun hp => ?start, fun t0 hp hlt => ?wait⟩⟩
  case start => exact ⟨_, exec_adcsettle_start hp, (s.moveSeq_frame _ _).mono (by simp), rfl, rfl⟩
  case wait =>
    have hu := s.passTime_frame (t0.toNat + s.params.settleDelay)
    obtain ⟨hback, hreached⟩ := s.passTime_now (t0.toNat + s.params.settleDelay)
    have hpc : (s.passTime (t0.toNat + s.params.settleDelay)).pc = s.pc := hu .pc (by decide)
    refine .of_exec ((exec_adcsettle_wait hp).trans (congrArg _ (s.endWait_of_lt hlt))) (congrArg (· + 1) hpc) ?_
      ⟨rfl, rfl, hreached hlt, hback⟩
    exact (hu.mono (by simp)).trans
      (((State.moveSeq_frame _ .running .idle).mono (by simp)).trans ((State.advance_frame _).mono (by simp)))

/-! ## The reads of FIFOCNT, and the fault without a mapping (R90) -/

theorem exec_adcdrain_start {s : State} (h : s.phase = .idle) : exec .adcdrain s = drainCount 0 s := by
  change execAdcdrain s = _
  rw [execAdcdrain, h]

theorem exec_adcharv_count {s : State} (h : s.phase = .idle ∨ s.phase = .harvCount) :
    exec .adcharv s = harvCount s := by
  change execAdcharv s = _
  rcases h with h | h <;> rw [execAdcharv, h]

theorem drainCount_unmapped {s : State} (h : s.mapped = false) (n : Nat) :
    drainCount n s = s.trap (accessTrap s.params.offFifocnt) := by
  rw [drainCount, memRead_refused (.inl h)]

theorem harvCount_unmapped {s : State} (h : s.mapped = false) :
    harvCount s = s.trap (accessTrap s.params.offFifocnt) := by
  rw [harvCount, memRead_refused (.inl h)]

/-- Settles O26: the first access of each is refused; what ADCTRIG did before it stands. -/
theorem unmappedAdcOperationsFault : Obligations.UnmappedAdcOperationsFault := by
  refine fun s mask hs hp => ⟨fun hdiv havg => ?adcinit, ?adcdrain, ?adcharv, ?adctrig⟩
  case adcinit => exact .of_writeThen ((exec_adcinit_start hp).trans (adcinitStart_legal hdiv havg)) hs
  case adcdrain => exact .of_trap ((exec_adcdrain_start hp).trans (drainCount_unmapped hs 0))
  case adcharv => exact .of_trap ((exec_adcharv_count (.inl hp)).trans (harvCount_unmapped hs))
  case adctrig =>
    exact ⟨_, State.writeThen_unmapped (s := { s with rawValid := .fill false }) hs _ _ _,
      State.raise_faultEntered _ _ _⟩

end Sys2Proof.Machine
end

section
/-! ADCINIT after its start (41_adc_controller.md R95): the poll of the clock latch, and the seventeen configuration
writes, each as an atomic step and all in a row. -/

namespace Sys2Proof.Machine

/-! ## Atomic steps in a row -/

/-- The first of several atomic steps. -/
theorem execTimes_succ {i : Instr} {s t : State} (h : exec i s = .next t) (n : Nat) :
    execTimes (n + 1) i s = execTimes n i t := by
  rw [execTimes, h]

/-- The first `m` of several atomic steps. -/
theorem execTimes_add {i : Instr} {m : Nat} {s t : State} (h : execTimes m i s = .next t) (n : Nat) :
    execTimes (m + n) i s = execTimes n i t := by
  induction m generalizing s with
  | zero =>
    obtain rfl := Host.Outcome.next.inj h
    rw [Nat.zero_add]
  | succ m ih =>
    rw [Nat.add_right_comm]
    cases he : exec i s with
    | next u =>
      rw [execTimes_succ he] at h ⊢
      exact ih h
    | fault f => simp [execTimes, he] at h
    | refused r => simp [execTimes, he] at h

/-- `s` with SEQ at the phase `p`. -/
def State.setPhase (s : State) (p : Phase) : State := { s with phase := p }

theorem State.setPhase_frame (s : State) (p : Phase) : OnlyChanges [.phase] s (s.setPhase p) := by
  intro f hf
  cases f <;> first | rfl | exact fun _ => rfl | exact absurd (by simp) hf

/-! ## The poll of the latch -/

/-- A poll reads `clkOn`: it goes on when that is 1, else it times out or counts one more poll (R95). -/
theorem exec_adcinit_poll {s : State} {n : Nat} (hp : s.phase = .adcinitPoll n) (hs : s.mapped = true)
    (h : s.params.WindowLegal) : exec .adcinit s =
      if s.adc.clkOn = true then .next { s with run := .running, phase := .adcinitWrite .protectOff }
      else if pollsExpired s.params (n + 1) = true then s.trap ⟨.clkTimeout, BitVec.ofNat 32 (n + 1)⟩
      else .next { s with phase := .adcinitPoll (n + 1) } := by
  have hread : s.memRead s.params.offClkctrl = .ok (winRead s.adc .clkctrl 0) :=
    memRead_register (i := 0) hs h (clkctrl_mem _) nofun (by decide)
  have hbit : (winRead s.adc .clkctrl 0).value.getLsbD 0 = s.adc.clkOn := clkctrlByte_en _
  change execAdcinit s = _
  simp only [execAdcinit, hp, adcinitPoll, hread, hbit]

/-- A bounded poll count has run out when the bound is reached, an infinite one never (R95). -/
theorem pollsExpired_some {p : Params} {m : Nat} (h : p.clkWaitMax = some m) (n : Nat) :
    pollsExpired p n = true ↔ m ≤ n := by
  rw [pollsExpired, h]
  exact decide_eq_true_iff

theorem pollsExpired_none {p : Params} (h : p.clkWaitMax = none) (n : Nat) : ¬ pollsExpired p n = true := by
  rw [pollsExpired, h]
  exact Bool.false_ne_true

/-- A poll that finds the latch 0 with the count not run out counts one more. -/
theorem exec_adcinit_poll_again {s : State} {n : Nat} (hp : s.phase = .adcinitPoll n) (hs : s.mapped = true)
    (h : s.params.WindowLegal) (hoff : s.adc.clkOn = false) (hn : ¬ pollsExpired s.params (n + 1) = true) :
    exec .adcinit s = .next { s with phase := .adcinitPoll (n + 1) } := by
  rw [exec_adcinit_poll hp hs h, if_neg (by simp [hoff]), if_neg hn]

/-- With an infinite bound and a latch that stays 0, any number of steps only counts polls (R203). -/
theorem execTimes_adcinit_polls (k : Nat) {s : State} {n : Nat} (hp : s.phase = .adcinitPoll n) (hs : s.mapped = true)
    (h : s.params.WindowLegal) (hoff : s.adc.clkOn = false) (hinf : s.params.clkWaitMax = none) :
    execTimes k .adcinit s = .next { s with phase := .adcinitPoll (n + k) } := by
  induction k generalizing s n with
  | zero =>
    rw [Nat.add_zero, ← hp]
    rfl
  | succ k ih =>
    rw [execTimes_succ (exec_adcinit_poll_again hp hs h hoff (pollsExpired_none hinf _)),
      ih (s := { s with phase := .adcinitPoll (n + 1) }) rfl hs h hoff hinf, Nat.add_right_comm]
    rfl

/-- Settles O28: each poll takes the branch that the latch and the bound select; without a bound the polls repeat. -/
theorem adcinitPollsTheLatch : Obligations.AdcinitPollsTheLatch := by
  intro s n hp hrun hs h
  refine ⟨fun hon => ?latched, fun m hm hoff hle => ?timeout, fun m hm hoff hlt => ?again,
    fun hinf hoff k => ?forever⟩
  case latched =>
    exact ⟨_, (exec_adcinit_poll hp hs h).trans (if_pos hon), (s.moveSeq_frame _ _).mono (by simp), rfl, rfl⟩
  case timeout =>
    refine .of_trap (e := ⟨.clkTimeout, BitVec.ofNat 32 (n + 1)⟩) ?_
    rw [exec_adcinit_poll hp hs h, if_neg (by simp [hoff]), if_pos ((pollsExpired_some hm _).2 hle)]
  case again =>
    have hn : ¬ pollsExpired s.params (n + 1) = true := fun hx =>
      absurd hlt (Nat.not_lt.2 ((pollsExpired_some hm _).1 hx))
    exact ⟨_, exec_adcinit_poll_again hp hs h hoff hn, s.setPhase_frame _, rfl⟩
  case forever => exact ⟨_, execTimes_adcinit_polls k hp hs h hoff hinf, hrun, rfl, s.setPhase_frame _⟩

/-! ## One configuration write -/

/-- The register and the byte of it that a configuration write goes to. -/
def InitWrite.place : InitWrite → WinReg × Nat
  | .protectOff => (.ctrl, 0)
  | .divLow => (.clkdiv, 0)
  | .divHigh => (.clkdiv, 1)
  | .stepMode k => (.stepcfg k, 0)
  | .stepInput k => (.stepcfg k, 1)
  | .stepDelay k => (.stepdly k, 0)
  | .protectOn => (.ctrl, 0)
  | .enable => (.ctrl, 0)

/-- The state of the window's registers after a configuration write of the byte `v`. -/
def InitWrite.written (w : InitWrite) (a : AdcSide) (v : Byte) : AdcSide := winWrite a w.place.1 w.place.2 v

/-- The elements ADCINIT configures. -/
def initFields : List Field := [.clkDiv, .wpOff, .adcEn, .stepMode, .stepAvg, .stepInSel, .stepDelay]

theorem InitWrite.offset_place (w : InitWrite) (p : Params) :
    ∃ b, (b, w.place.1) ∈ regMap p ∧ w.offset p = b + w.place.2 ∧ w.place.2 < 4 := by
  cases w with
  | protectOff | protectOn | enable => exact ⟨_, ctrl_mem p, rfl, by decide⟩
  | divLow | divHigh => exact ⟨_, clkdiv_mem p, rfl, by decide⟩
  | stepMode k => exact ⟨_, stepcfg_mem p k, rfl, (by decide : 0 < 4)⟩
  | stepInput k => exact ⟨_, stepcfg_mem p k, rfl, (by decide : 1 < 4)⟩
  | stepDelay k => exact ⟨_, stepdly_mem p k, rfl, (by decide : 0 < 4)⟩

theorem InitWrite.written_frame (w : InitWrite) (s : State) (v : Byte) :
    OnlyChanges initFields s { s with adc := w.written s.adc v } := by
  refine (winWrite_writes s w.place.1 w.place.2 v).mono ?_
  cases w <;> simp [InitWrite.place, WinReg.writes, initFields]

/-- A legal averaging count gives every configuration write its byte (30_encoding.md R66). -/
theorem InitWrite.exists_byte (w : InitWrite) {s : State} (h : s.cfg.avg.toNat ∈ [1, 2, 4, 8, 16]) :
    ∃ v, w.byte s = some v := by
  obtain ⟨code, hcode⟩ := exists_avgCode h
  cases w with
  | stepMode k => exact ⟨stepcfgLow 0 code, by rw [InitWrite.byte, hcode]; rfl⟩
  | _ => exact ⟨_, rfl⟩

/-- Every configuration write but the last has one after it. -/
theorem InitWrite.exists_after {w : InitWrite} (h : w ≠ .enable) : ∃ w', w.after = some w' := by
  cases w with
  | enable => exact absurd rfl h
  | stepDelay k => exact ⟨if k = 3 then .protectOn else .stepMode (k + 1), (apply_ite some _ _ _).symm⟩
  | _ => exact ⟨_, rfl⟩

/-- A configuration write as an atomic step: its byte, then the next write or the end (R95). -/
theorem exec_adcinit_write {s : State} {w : InitWrite} (hp : s.phase = .adcinitWrite w) (hs : s.mapped = true)
    (h : s.params.WindowLegal) {v : Byte} (hv : w.byte s = some v) :
    exec .adcinit s = .next (State.afterInitWrite w { s with adc := w.written s.adc v }) := by
  obtain ⟨b, hm, hoff, hi⟩ := w.offset_place s.params
  change execAdcinit s = _
  simp only [execAdcinit, hp, adcinitWrite, hv, hoff]
  exact State.writeThen_register hs h hm hi v _

theorem State.afterInitWrite_some {w w' : InitWrite} (hw : w.after = some w') (s : State) :
    s.afterInitWrite w = { s with phase := .adcinitWrite w' } := by
  rw [State.afterInitWrite, hw]

/-- The last write sets `adcEn` alone and completes the operation. -/
theorem exec_adcinit_enable {s : State} (hp : s.phase = .adcinitWrite .enable) (hs : s.mapped = true)
    (h : s.params.WindowLegal) : exec .adcinit s = .next (State.complete { s with adc.adcEn := true }) := by
  have hadc : InitWrite.written .enable s.adc (ctrlByte true s.adc.wpOff) = { s.adc with adcEn := true } :=
    winWrite_adcEn s.adc true
  rw [exec_adcinit_write hp hs h rfl, hadc]
  rfl

/-- Settles O30: a write that has one after it leads there, the last one completes the operation. -/
theorem adcinitWritesAnswer : Obligations.AdcinitWritesAnswer := by
  intro s w hp hs h havg
  refine ⟨fun hne => ?more, fun hlast => ?last⟩
  case more =>
    obtain ⟨w', hw'⟩ := InitWrite.exists_after hne
    obtain ⟨v, hv⟩ := w.exists_byte havg
    have he := exec_adcinit_write hp hs h hv
    rw [State.afterInitWrite_some hw'] at he
    exact ⟨w', hw', _, he, ((w.written_frame s v).mono fun _ => List.mem_cons_of_mem _).trans
      ((State.setPhase_frame _ _).mono (by simp)), rfl⟩
  case last =>
    subst hlast
    exact .of_exec (exec_adcinit_enable hp hs h) rfl (((s.setAdcEn_frame true).mono (by simp)).trans
      ((State.complete_frame _).mono (by simp))) ⟨rfl, rfl⟩

/-! ## The seventeen writes -/

/-! What each write writes. -/

theorem AdcSide.written_protectOff (a : AdcSide) :
    InitWrite.written .protectOff a (ctrlByte a.adcEn true) = { a with wpOff := true } := winWrite_wpOff a true

theorem AdcSide.written_protectOn (a : AdcSide) :
    InitWrite.written .protectOn a (ctrlByte a.adcEn false) = { a with wpOff := false } := winWrite_wpOff a false

theorem AdcSide.written_divLow (a : AdcSide) (v : Byte) :
    InitWrite.written .divLow a v = { a with clkDiv := a.clkDiv.extractLsb' 8 8 ++ v } := rfl

theorem AdcSide.written_divHigh (a : AdcSide) (v : Byte) :
    InitWrite.written .divHigh a v = { a with clkDiv := v ++ a.clkDiv.extractLsb' 0 8 } := rfl

theorem AdcSide.written_stepMode {a : AdcSide} (h : a.wpOff = true) (k : Chan) (code : BitVec 3) :
    InitWrite.written (.stepMode k) a (stepcfgLow 0 code) =
      { a with stepMode := a.stepMode.set k 0, stepAvg := a.stepAvg.set k code } := by
  refine (winWrite_stepcfg_low h k _).trans ?_
  rw [stepcfgLow, extract_low, extract_middle]

theorem AdcSide.written_stepInput {a : AdcSide} (h : a.wpOff = true) (k : Chan) (n : BitVec 4) :
    InitWrite.written (.stepInput k) a (stepcfgHigh n) = { a with stepInSel := a.stepInSel.set k n } := by
  refine (winWrite_stepcfg_high h k _).trans ?_
  rw [stepcfgHigh, extract_low]

theorem AdcSide.written_stepDelay {a : AdcSide} (h : a.wpOff = true) (k : Chan) (v : Byte) :
    InitWrite.written (.stepDelay k) a v = { a with stepDelay := a.stepDelay.set k v } := winWrite_stepdly h k v

/-- `s` before ADCINIT's write `w`, the window's registers holding `a`. -/
def State.writing (s : State) (w : InitWrite) (a : AdcSide) : State := { s with phase := .adcinitWrite w, adc := a }

/-- The converter's step `k` in one-shot mode with the averaging code, its input and the sample delay (R95). -/
def AdcSide.configureStep (a : AdcSide) (p : Params) (code : BitVec 3) (k : Chan) : AdcSide :=
  { a with
    stepMode := a.stepMode.set k 0
    stepAvg := a.stepAvg.set k code
    stepInSel := a.stepInSel.set k (p.inSel.get k)
    stepDelay := a.stepDelay.set k p.sampleDelay }

/-- The converter as ADCINIT leaves it (R95). -/
def AdcSide.configured (a : AdcSide) (c : Cfg) (p : Params) (code : BitVec 3) : AdcSide :=
  { a with
    clkDiv := c.clkDiv.setWidth 16
    wpOff := false
    adcEn := true
    stepMode := .fill 0
    stepAvg := .fill code
    stepInSel := p.inSel
    stepDelay := .fill p.sampleDelay }

theorem AdcSide.configured_frame (s : State) (code : BitVec 3) :
    OnlyChanges initFields s { s with adc := s.adc.configured s.cfg s.params code } := by
  intro f hf
  cases f <;> first | rfl | exact fun _ => rfl | exact absurd (by simp [initFields]) hf

section
variable {s : State} (hs : s.mapped = true) (h : s.params.WindowLegal)
include hs h

/-- A write that is not the last leads to the one after it. -/
theorem exec_adcinit_writing {w w' : InitWrite} (hw : w.after = some w') {a b : AdcSide} {v : Byte}
    (hb : w.written a v = b) (hv : w.byte (s.writing w a) = some v) :
    exec .adcinit (s.writing w a) = .next (s.writing w' b) := by
  rw [exec_adcinit_write (s := s.writing w a) rfl hs h hv, State.afterInitWrite_some hw, ← hb]
  rfl

/-- The first three writes lift the protection and write the divider, low byte and high byte. -/
theorem execTimes_adcinit_divider (a : AdcSide) :
    execTimes 3 .adcinit (s.writing .protectOff a) =
      .next (s.writing (.stepMode 0) { a with wpOff := true, clkDiv := s.cfg.clkDiv.setWidth 16 }) := by
  rw [execTimes_succ (exec_adcinit_writing hs h rfl a.written_protectOff rfl),
    execTimes_succ (exec_adcinit_writing hs h rfl (AdcSide.written_divLow _ _) rfl),
    execTimes_succ (exec_adcinit_writing hs h rfl (AdcSide.written_divHigh _ _) rfl)]
  have hdiv : s.cfg.clkDiv.extractLsb' 8 8 ++ s.cfg.clkDiv.extractLsb' 0 8 = s.cfg.clkDiv.setWidth 16 :=
    (BitVec.extractLsb'_append_extractLsb'_eq_extractLsb' rfl).trans (BitVec.setWidth_eq_extractLsb' (by decide)).symm
  rw [extract_low, ← hdiv]
  rfl

/-- Three writes configure a step of the converter while the protection is off. -/
theorem execTimes_adcinit_step {code : BitVec 3} (hcode : avgCode s.cfg.avg = some code) {a : AdcSide}
    (ha : a.wpOff = true) {k : Chan} {w' : InitWrite} (hw : InitWrite.after (.stepDelay k) = some w') :
    execTimes 3 .adcinit (s.writing (.stepMode k) a) = .next (s.writing w' (a.configureStep s.params code k)) := by
  have hbyte : InitWrite.byte (s.writing (.stepMode k) a) (.stepMode k) = some (stepcfgLow 0 code) :=
    congrArg (Option.map (stepcfgLow 0)) hcode
  rw [execTimes_succ (exec_adcinit_writing hs h rfl (AdcSide.written_stepMode ha k code) hbyte),
    execTimes_succ (exec_adcinit_writing hs h rfl (AdcSide.written_stepInput ?input k _) rfl),
    execTimes_succ (exec_adcinit_writing hs h hw (AdcSide.written_stepDelay ?delay k _) rfl)]
  · rfl
  case input | delay => exact ha

/-- The last two writes restore the protection and enable the converter, which ends the operation. -/
theorem execTimes_adcinit_enable (a : AdcSide) :
    execTimes 2 .adcinit (s.writing .protectOn a) =
      .next (State.complete { s with adc := { a with wpOff := false, adcEn := true } }) := by
  rw [execTimes_succ (exec_adcinit_writing hs h rfl a.written_protectOn rfl),
    execTimes_succ (exec_adcinit_enable (s := s.writing .enable { a with wpOff := false }) rfl hs h)]
  rfl

/-- ADCINIT's seventeen writes: the divider's three, three for each step, and the last two. -/
theorem execTimes_adcinit_writes {code : BitVec 3} (hcode : avgCode s.cfg.avg = some code)
    (hp : s.phase = .adcinitWrite .protectOff) :
    execTimes 17 .adcinit s = .next (State.complete { s with adc := s.adc.configured s.cfg s.params code }) := by
  have hstart : s = s.writing .protectOff s.adc := by
    rw [State.writing, ← hp]
  calc execTimes 17 .adcinit s
      = execTimes (3 + (3 + (3 + (3 + (3 + 2))))) .adcinit (s.writing .protectOff s.adc) := by rw [← hstart]
    _ = .next (State.complete { s with adc := s.adc.configured s.cfg s.params code }) := by
      rw [execTimes_add (execTimes_adcinit_divider hs h _),
        execTimes_add (execTimes_adcinit_step hs h hcode rfl rfl),
        execTimes_add (execTimes_adcinit_step hs h hcode rfl rfl),
        execTimes_add (execTimes_adcinit_step hs h hcode rfl rfl),
        execTimes_add (execTimes_adcinit_step hs h hcode rfl rfl),
        execTimes_adcinit_enable hs h]
      rfl

end

/-- Settles O29: the seventeen writes leave the configured converter and complete the operation. -/
theorem adcinitConfiguresTheConverter : Obligations.AdcinitConfiguresTheConverter := by
  intro s hp hs h havg
  obtain ⟨code, hcode⟩ := exists_avgCode havg
  refine ⟨_, execTimes_adcinit_writes hs h hcode hp, rfl, rfl, rfl, rfl, rfl, fun k => ⟨Quad.get_fill _ k, ?_, rfl,
    Quad.get_fill _ k⟩, ?_⟩
  · exact (congrArg (fun c => 2 ^ BitVec.toNat c) (Quad.get_fill code k)).trans (two_pow_avgCode hcode)
  · exact ((AdcSide.configured_frame s code).mono (by simp [initFields])).trans
      ((State.complete_frame _).mono (by simp))

end Sys2Proof.Machine
end

section
/-! ADCDRAIN and ADCHARV (41_adc_controller.md R96, R100): each atomic step, and whole runs over the FIFO by induction
on its words. -/

namespace Sys2Proof

/-- Writing an element the value it has changes nothing. -/
theorem Quad.set_get_self {α : Type} (q : Quad α) (c : Chan) : q.set c (q.get c) = q := by
  refine Quad.ext_get fun d => ?_
  rw [Quad.get_set]
  split
  · next hd => rw [hd]
  · rfl

namespace Machine

/-- An element that has the same value after all can be left out of the frame. -/
theorem OnlyChanges.drop {s t : State} {f : Field} {l l' : List Field} (h : OnlyChanges l s t) (hf : f.Same s t)
    (hl : ∀ g ∈ l, g = f ∨ g ∈ l') : OnlyChanges l' s t := by
  intro g hg
  by_cases hgf : g = f
  · exact hgf ▸ hf
  · exact h g fun hgl => (hl g hgl).elim hgf hg

/-! ## The two reads of the FIFO -/

/-- While the number of words fits the count byte, it reads 0 exactly for the empty FIFO (10_state.md R18). -/
theorem AdcSide.count_eq_zero_iff {a : AdcSide} (h : a.fifo.length ≤ 255) : a.count = 0 ↔ a.fifo = [] := by
  rw [← BitVec.toNat_inj, AdcSide.count_toNat h]
  exact List.length_eq_zero_iff

theorem AdcSide.count_of_empty {a : AdcSide} (h : a.fifo = []) : a.count = 0 :=
  (AdcSide.count_eq_zero_iff (by simp [h])).2 h

/-- The read of `FIFOCNT` of a mapped window answers the count (20_memory.md R43). -/
theorem memRead_fifocnt {s : State} (hs : s.mapped = true) (h : s.params.WindowLegal) :
    s.memRead s.params.offFifocnt = .ok ⟨s.adc.count, 0xFF⟩ :=
  memRead_register (i := 0) hs h (fifocnt_mem _) nofun (by decide)

theorem fifoAccess_mapped {s : State} (hs : s.mapped = true) : s.fifoAccess = none := if_pos hs

/-- `s` with the words `ws` in the FIFO. -/
def State.setFifo (s : State) (ws : List Word) : State := { s with adc.fifo := ws }

/-! ## ADCDRAIN (R96) -/

theorem drainCount_empty {s : State} (hs : s.mapped = true) (h : s.params.WindowLegal) (hw : s.adc.fifo = [])
    (n : Nat) : drainCount n s = .next (s.drained n) := by
  simp only [drainCount, memRead_fifocnt hs h, AdcSide.count_of_empty hw, if_true]

theorem drainCount_nonempty {s : State} (hs : s.mapped = true) (h : s.params.WindowLegal) (hw : s.adc.fifo ≠ [])
    (hlen : s.adc.fifo.length ≤ 255) (n : Nat) : drainCount n s = .next (s.setPhase (.drainRead n)) := by
  simp only [drainCount, memRead_fifocnt hs h, AdcSide.count_eq_zero_iff hlen, hw, if_false, State.setPhase]

/-- The read of `FIFODATA` discards the head. -/
theorem exec_adcdrain_read {s : State} {n : Nat} {w : Word} {ws : List Word} (hp : s.phase = .drainRead n)
    (hs : s.mapped = true) (hw : s.adc.fifo = w :: ws) :
    exec .adcdrain s = .next ((s.setFifo ws).setPhase (.drainCount (n + 1))) := by
  change execAdcdrain s = _
  simp only [execAdcdrain, hp, drainRead, fifoAccess_mapped hs, (State.fifoPop_cons hw).1]
  rfl

theorem State.setFifo_self {s : State} {ws : List Word} (h : s.adc.fifo = ws) : s.setFifo ws = s := by
  subst h
  rfl

/-- The end of the loop leaves the phase behind. -/
theorem State.setPhase_drained (s : State) (p : Phase) (n : Nat) : (s.setPhase p).drained n = s.drained n := by
  unfold State.drained
  split <;> rfl

/-- From a count read with `n` words discarded, two steps a word and a last count read drain the FIFO. -/
theorem execTimes_adcdrain (ws : List Word) {s : State} {n : Nat} (hp : exec .adcdrain s = drainCount n s)
    (hs : s.mapped = true) (h : s.params.WindowLegal) (hw : s.adc.fifo = ws) (hlen : ws.length ≤ 255) :
    execTimes (2 * ws.length + 1) .adcdrain s = .next ((s.setFifo []).drained (n + ws.length)) := by
  induction ws generalizing s n with
  | nil =>
    rw [State.setFifo_self hw]
    exact execTimes_succ (hp.trans (drainCount_empty hs h hw n)) 0
  | cons w ws ih =>
    have hcount := hp.trans (drainCount_nonempty hs h (by simp [hw]) (hw ▸ hlen) n)
    have hread := exec_adcdrain_read (s := s.setPhase (.drainRead n)) rfl hs hw
    calc execTimes (2 * (w :: ws).length + 1) .adcdrain s
        = execTimes (2 * ws.length + 1) .adcdrain ((s.setFifo ws).setPhase (.drainCount (n + 1))) :=
          (execTimes_succ hcount _).trans (execTimes_succ hread _)
      _ = .next (((s.setFifo []).setPhase (.drainCount (n + 1))).drained (n + 1 + ws.length)) :=
          ih rfl hs h rfl (Nat.le_of_succ_le hlen)
      _ = .next ((s.setFifo []).drained (n + (w :: ws).length)) := by
          rw [State.setPhase_drained, List.length_cons, Nat.add_right_comm, Nat.add_assoc]

/-- Settles O31: the drain of the FIFO's words, which marks them stale when there is one. -/
theorem adcdrainEmptiesTheFifo : Obligations.AdcdrainEmptiesTheFifo := by
  refine ⟨rfl, fun s hs h hp hlen => ⟨?drains, fun hempty => ?ends⟩⟩
  case drains =>
    have hrun := execTimes_adcdrain s.adc.fifo (exec_adcdrain_start hp) hs h rfl hlen
    rw [Nat.zero_add] at hrun
    have hfifo := (s.setFifo_frame []).mono (l' := [.pc, .phase, .fifo, .aStale, .log]) (by simp)
    cases hw : s.adc.fifo with
    | nil =>
      rw [hw] at hrun
      exact ⟨_, hrun, rfl, rfl, rfl, fun hne => absurd rfl hne, fun _ => ⟨rfl, rfl⟩,
        hfifo.trans ((State.complete_frame _).mono (by simp))⟩
    | cons w ws =>
      rw [hw] at hrun
      exact ⟨_, hrun, rfl, rfl, rfl, fun _ => ⟨rfl, rfl⟩, nofun,
        hfifo.trans (((State.markStale_frame _ _).mono (by simp)).trans ((State.complete_frame _).mono (by simp)))⟩
  case ends =>
    have he := (exec_adcdrain_start hp).trans (drainCount_empty hs h hempty 0)
    exact .of_exec he rfl (s.complete_frame.drop (f := .phase) hp.symm (by simp)) trivial

/-! ## ADCHARV (R100) -/

theorem harvCount_empty {s : State} (hs : s.mapped = true) (h : s.params.WindowLegal) (hw : s.adc.fifo = []) :
    harvCount s = .next s.complete := by
  simp only [harvCount, memRead_fifocnt hs h, AdcSide.count_of_empty hw, if_true]

theorem harvCount_nonempty {s : State} (hs : s.mapped = true) (h : s.params.WindowLegal) (hw : s.adc.fifo ≠ [])
    (hlen : s.adc.fifo.length ≤ 255) : harvCount s = .next (s.setPhase .harvRead) := by
  simp only [harvCount, memRead_fifocnt hs h, AdcSide.count_eq_zero_iff hlen, hw, if_false, State.setPhase]

/-- The read of `FIFODATA` harvests the head. -/
theorem exec_adcharv_read {s : State} {w : Word} {ws : List Word} (hp : s.phase = .harvRead) (hs : s.mapped = true)
    (hw : s.adc.fifo = w :: ws) :
    exec .adcharv s = .next (((s.setFifo ws).harvestWord w).setPhase .harvCount) := by
  obtain ⟨hpop, hhead⟩ := State.fifoPop_cons hw
  have he : exec .adcharv s = harvRead s := by
    change execAdcharv s = _
    rw [execAdcharv, hp]
  rw [he, harvRead, fifoAccess_mapped hs, hpop, hhead]
  rfl

/-- `raw[c] <- x; rawValid[c] <- 1` (R100). -/
def State.takeSample (s : State) (c : Chan) (x : Sample) : State :=
  { s with raw := s.raw.set c x, rawValid := s.rawValid.set c true }

theorem State.takeSample_frame (s : State) (c : Chan) (x : Sample) :
    OnlyChanges [.raw, .rawValid] s (s.takeSample c x) := by
  intro f hf
  cases f <;> first | rfl | exact fun _ => rfl | exact absurd (by simp) hf

/-- A sample of a channel that is valid already leaves `rawValid` as it is. -/
theorem State.takeSample_frame_of_valid {s : State} {c : Chan} (hv : s.rawValid.get c = true) (x : Sample) :
    OnlyChanges [.raw] s (s.takeSample c x) := by
  have hsame : s.rawValid.set c true = s.rawValid := hv ▸ s.rawValid.set_get_self c
  exact (s.takeSample_frame c x).drop (f := .rawValid) hsame (by simp)

/-! The three fates of a harvested word (R100). -/

theorem State.harvestWord_badTag {s : State} {w : Word} (h : 3 < fifoTag s.params w) :
    s.harvestWord w = s.markBadTag w := dif_neg (Nat.not_lt.2 h)

theorem State.harvestWord_fresh {s : State} {w : Word} {c : Chan} (h : fifoTag s.params w = c.val)
    (hv : s.rawValid.get c = false) : s.harvestWord w = s.takeSample c (fifoSample s.params w) := by
  simp [State.harvestWord, h, hv, State.takeSample]

theorem State.harvestWord_dup {s : State} {w : Word} {c : Chan} (h : fifoTag s.params w = c.val)
    (hv : s.rawValid.get c = true) : s.harvestWord w = (s.markDup w).takeSample c (fifoSample s.params w) := by
  simp [State.harvestWord, h, hv, State.takeSample]

theorem State.markBadTag_frame (s : State) (w : Word) : OnlyChanges [.aBadTag, .log] s (s.markBadTag w) := by
  intro f hf
  cases f <;> first | rfl | exact fun _ => rfl | exact absurd (by simp) hf

theorem State.markDup_frame (s : State) (w : Word) : OnlyChanges [.aDup, .log] s (s.markDup w) := by
  intro f hf
  cases f <;> first | rfl | exact fun _ => rfl | exact absurd (by simp) hf

/-- The frame of a read that pops a word and does `t` with it. -/
theorem harvestStep_frame (s : State) (ws : List Word) {t : State} {l l' : List Field}
    (ht : OnlyChanges l (s.setFifo ws) t) (hl : ∀ f ∈ .fifo :: .phase :: l, f ∈ l') :
    OnlyChanges l' s (t.setPhase .harvCount) :=
  ((s.setFifo_frame ws).mono fun f hf => hl f (by simp_all)).trans
    ((ht.mono fun f hf => hl f (by simp [hf])).trans ((t.setPhase_frame _).mono fun f hf => hl f (by simp_all)))

/-- Settles O34: the count read ends the loop or leads to a read, and the word read meets the fate its tag gives it. -/
theorem adcharvTakesWordsByTag : Obligations.AdcharvTakesWordsByTag := by
  refine ⟨rfl, fun s hs h => ⟨fun hp hw => ?empty, fun hp hw hlen => ?nonempty, fun w ws hp hw =>
    ⟨fun htag => ?badTag, fun c htag hv => ?fresh, fun c htag hv => ?dup⟩⟩⟩
  case empty =>
    exact .of_exec ((exec_adcharv_count hp).trans (harvCount_empty hs h hw)) rfl s.complete_frame rfl
  case nonempty =>
    exact ⟨_, (exec_adcharv_count hp).trans (harvCount_nonempty hs h hw hlen), s.setPhase_frame _, rfl⟩
  case badTag =>
    have he := exec_adcharv_read hp hs hw
    rw [State.harvestWord_badTag (s := s.setFifo ws) htag] at he
    exact ⟨_, he, harvestStep_frame s ws (State.markBadTag_frame _ w) (by simp), rfl, rfl, rfl, rfl⟩
  case fresh =>
    have he := exec_adcharv_read hp hs hw
    rw [State.harvestWord_fresh (s := s.setFifo ws) htag hv] at he
    exact ⟨_, he, harvestStep_frame s ws (State.takeSample_frame _ c _) (by simp), rfl, rfl, Quad.get_set_same _ _ _,
      Quad.get_set_same _ _ _, .set _ _ _, .set _ _ _⟩
  case dup =>
    have he := exec_adcharv_read hp hs hw
    rw [State.harvestWord_dup (s := s.setFifo ws) htag hv] at he
    have hframe : OnlyChanges [.raw, .aDup, .log] (s.setFifo ws)
        (((s.setFifo ws).markDup w).takeSample c (fifoSample s.params w)) :=
      ((State.markDup_frame _ w).mono (by simp)).trans
        ((State.takeSample_frame_of_valid (s := (s.setFifo ws).markDup w) hv _).mono (by simp))
    exact ⟨_, he, harvestStep_frame s ws hframe (by simp), rfl, rfl, Quad.get_set_same _ _ _, .set _ _ _, rfl, rfl⟩

/-! ### A batch in any order (R205) -/

/-- `t` is `s` after the harvest of one word for each channel of `order`, its sample `sample c`. -/
structure Harvested (order : List Chan) (sample : Chan → Sample) (s t : State) : Prop where
  pc : t.pc = s.pc + 1
  phase : t.phase = .idle
  fifo : t.adc.fifo = []
  taken : ∀ c, c ∈ order → t.raw.get c = sample c ∧ t.rawValid.get c = true
  kept : ∀ c, c ∉ order → t.raw.get c = s.raw.get c ∧ t.rawValid.get c = s.rawValid.get c
  frame : OnlyChanges [.pc, .phase, .fifo, .raw, .rawValid] s t

/-- The state after the count read and the read of a word of channel `c` whose sample is `x`. -/
def State.afterWord (s : State) (ws : List Word) (c : Chan) (x : Sample) : State :=
  ((s.setFifo ws).takeSample c x).setPhase .harvCount

/-- A batch of the remaining words, with the first one's channel not among them, is a batch of all. -/
theorem Harvested.cons {order : List Chan} {sample : Chan → Sample} {s t : State} {ws : List Word} {c : Chan}
    (h : Harvested order sample (s.afterWord ws c (sample c)) t) (hc : c ∉ order) :
    Harvested (c :: order) sample s t where
  pc := h.pc
  phase := h.phase
  fifo := h.fifo
  taken d hd := by
    rcases List.mem_cons.1 hd with rfl | hd
    · obtain ⟨hraw, hvalid⟩ := h.kept d hc
      exact ⟨hraw.trans (Quad.get_set_same _ _ _), hvalid.trans (Quad.get_set_same _ _ _)⟩
    · exact h.taken d hd
  kept d hd := by
    obtain ⟨hne, hd⟩ := not_or.1 (mt List.mem_cons.2 hd)
    obtain ⟨hraw, hvalid⟩ := h.kept d hd
    exact ⟨hraw.trans (Quad.get_set_other _ _ hne), hvalid.trans (Quad.get_set_other _ _ hne)⟩
  frame := (harvestStep_frame s ws (State.takeSample_frame _ c _) (by simp)).trans h.frame

/-- The count read and the read of a fresh channel's word. -/
theorem execTimes_adcharv_word {s : State} (hp : exec .adcharv s = harvCount s) (hs : s.mapped = true)
    (h : s.params.WindowLegal) {w : Word} {ws : List Word} (hw : s.adc.fifo = w :: ws)
    (hlen : s.adc.fifo.length ≤ 255) {c : Chan} (htag : fifoTag s.params w = c.val) (hv : s.rawValid.get c = false)
    (n : Nat) : execTimes (n + 2) .adcharv s =
      execTimes n .adcharv (s.afterWord ws c (fifoSample s.params w)) := by
  have hcount := hp.trans (harvCount_nonempty hs h (by simp [hw]) hlen)
  have hread := exec_adcharv_read (s := s.setPhase .harvRead) rfl hs hw
  rw [State.harvestWord_fresh (s := (s.setPhase .harvRead).setFifo ws) htag hv] at hread
  exact (execTimes_succ hcount _).trans (execTimes_succ hread _)

/-- From a count read, two steps a word and a last count read harvest a batch of distinct fresh channels. -/
theorem execTimes_adcharv (order : List Chan) (sample : Chan → Sample) {s : State}
    (hp : exec .adcharv s = harvCount s) (hs : s.mapped = true) (h : s.params.WindowLegal)
    (hf : s.params.FifoLegal) (hn : order.Nodup) (hv : ∀ c ∈ order, s.rawValid.get c = false)
    (hw : s.adc.fifo = order.map fun c => fifoPack s.params c (sample c)) :
    ∃ t, execTimes (2 * order.length + 1) .adcharv s = .next t ∧ Harvested order sample s t := by
  induction order generalizing s with
  | nil =>
    exact ⟨s.complete, execTimes_succ (hp.trans (harvCount_empty hs h hw)) 0, rfl, rfl, hw, nofun,
      fun _ _ => ⟨rfl, rfl⟩, s.complete_frame.mono (by simp)⟩
  | cons c order ih =>
    obtain ⟨hc, hn'⟩ := List.nodup_cons.1 hn
    have hlen : s.adc.fifo.length ≤ 255 := by
      have hcard : (c :: order).length ≤ 4 := hn.length_le_card
      rw [hw, List.length_map]
      omega
    rw [List.map_cons] at hw
    generalize hws : order.map _ = ws at hw
    have hword := execTimes_adcharv_word hp hs h hw hlen (fifoTag_fifoPack hf c _) (hv c (by simp))
      (2 * order.length + 1)
    rw [fifoSample_fifoPack hf] at hword
    have hv' (d : Chan) (hd : d ∈ order) : (s.rawValid.set c true).get d = false :=
      (Quad.get_set_other _ _ fun hdc : d = c => hc (hdc ▸ hd)).trans (hv d (by simp [hd]))
    obtain ⟨t, ht, hharvested⟩ :=
      ih (s := s.afterWord ws c (sample c)) (exec_adcharv_count (.inr rfl)) hs h hf hn' hv' hws.symm
    exact ⟨t, hword.trans ht, hharvested.cons hc⟩

/-- Settles O36: whatever the order of the words, each channel's own sample is the one taken. -/
theorem harvestIsIndependentOfOrder : Obligations.HarvestIsIndependentOfOrder := by
  intro s order sample hn h hf hs hp hv hw
  have hfresh (c : Chan) : s.rawValid.get c = false := by rw [hv, Quad.get_fill]
  obtain ⟨t, ht, hpc, hphase, hfifo, htaken, hkept, hframe⟩ :=
    execTimes_adcharv order sample (exec_adcharv_count (.inl hp)) hs h hf hn (fun c _ => hfresh c) hw
  exact ⟨t, ht, hpc, hphase, hfifo, htaken, fun c hc => ⟨(hkept c hc).1, (hkept c hc).2.trans (hfresh c)⟩, hframe⟩

end Machine

end Sys2Proof
end

section
/-! The median filter (42_median_filter.md): the median by counting the slots below and up to a value, the window read
as a queue with its oldest slot first, and `MEDU.R` and `MEDU.I` over it. -/

namespace Sys2Proof.Machine

/-! ## The median (R112) -/

theorem sortedSamples_perm (xs : List Sample) : (sortedSamples xs).Perm xs := List.perm_insertionSort _ xs

theorem sortedSamples_pairwise (xs : List Sample) : (sortedSamples xs).Pairwise fun a b => a.toNat ≤ b.toNat := by
  have : Std.Total fun a b : Sample => a.toNat ≤ b.toNat := ⟨fun a b => Nat.le_total a.toNat b.toNat⟩
  have : IsTrans Sample fun a b => a.toNat ≤ b.toNat := ⟨fun _ _ _ => Nat.le_trans⟩
  exact List.pairwise_insertionSort _ xs

/-- There is one ascending arrangement only. -/
theorem sortedSamples_congr {xs ys : List Sample} (h : xs.Perm ys) : sortedSamples xs = sortedSamples ys := by
  refine List.Perm.eq_of_pairwise (fun a b _ _ hab hba => BitVec.eq_of_toNat_eq (Nat.le_antisymm hab hba))
    (sortedSamples_pairwise xs) (sortedSamples_pairwise ys) ?_
  exact (sortedSamples_perm xs).trans (h.trans (sortedSamples_perm ys).symm)

/-- The median depends on the multiset of the slots only (R112). -/
theorem median_congr (n : Nat) {xs ys : List Sample} (h : xs.Perm ys) : median n xs = median n ys :=
  congrArg (fun l => l.getD ((n - 1) / 2) 0) (sortedSamples_congr h)

theorem sortedSamples_getElem?_middle {n : Nat} {xs : List Sample} (hlen : xs.length = n) (hn : 0 < n) :
    (sortedSamples xs)[(n - 1) / 2]? = some (median n xs) := by
  have hlt : (n - 1) / 2 < (sortedSamples xs).length := by
    rw [(sortedSamples_perm xs).length_eq]
    omega
  rw [median, List.getD_eq_getElem _ _ hlt, List.getElem?_eq_getElem hlt]

/-- Settles O38: the arrangement is the sorted one, and rearrangements have the same sorted one. -/
theorem medianIsTheLowerMiddle : Obligations.MedianIsTheLowerMiddle :=
  ⟨fun _ xs hlen hn => ⟨sortedSamples xs, sortedSamples_perm xs, sortedSamples_pairwise xs,
    sortedSamples_getElem?_middle hlen hn⟩, fun n _ _ h => median_congr n h⟩

/-! ### The median by counting -/

/-- In an ascending list, `v` stands at place `m` when at most `m` elements are below it and more than `m` are not above
it. -/
theorem getD_of_countP {l : List Sample} (hl : l.Pairwise fun a b => a.toNat ≤ b.toNat) {v : Sample} {m : Nat}
    (hbelow : l.countP (fun x => x < v) ≤ m) (hupTo : m < l.countP (fun x => x ≤ v)) : l.getD m 0 = v := by
  induction l generalizing m with
  | nil => exact absurd hupTo (Nat.not_lt_zero m)
  | cons a l ih =>
    obtain ⟨ha, hl⟩ := List.pairwise_cons.1 hl
    rw [List.countP_cons] at hbelow hupTo
    cases m with
    | zero =>
      have hva : v ≤ a := by
        by_contra h
        simp [BitVec.not_le.1 h] at hbelow
      have hav : a ≤ v := by
        by_contra h
        have hnone : l.countP (fun x => x ≤ v) = 0 := List.countP_eq_zero.2 fun x hx hxv =>
          h (Nat.le_trans (ha x hx) (of_decide_eq_true hxv))
        simp [h, hnone] at hupTo
      exact BitVec.le_antisymm hav hva
    | succ m =>
      refine ih hl ?_ ?_
      · by_cases hav : a < v
        · simpa [hav] using hbelow
        · have hnone : l.countP (fun x => x < v) = 0 := List.countP_eq_zero.2 fun x hx hxv =>
            hav (Nat.lt_of_le_of_lt (ha x hx) (of_decide_eq_true hxv))
          exact hnone ▸ Nat.zero_le m
      · split at hupTo <;> omega

/-- The median is `v` when the slots below `v` do not reach up to its place and those up to `v` do. -/
theorem median_eq_of_countP {n : Nat} {xs : List Sample} {v : Sample}
    (hbelow : xs.countP (fun x => x < v) ≤ (n - 1) / 2) (hupTo : (n - 1) / 2 < xs.countP (fun x => x ≤ v)) :
    median n xs = v := by
  rw [← (sortedSamples_perm xs).countP_eq] at hbelow hupTo
  exact getD_of_countP (sortedSamples_pairwise xs) hbelow hupTo

/-- Settles O39: one slot at most lies below `v`, and all but one at most are up to `v`. -/
theorem medianIgnoresASingleOutlier : Obligations.MedianIgnoresASingleOutlier := by
  intro n xs v hlen hn hout
  have hbelow : xs.countP (fun x => x < v) ≤ xs.countP (fun x => x ≠ v) :=
    List.countP_mono_left fun x _ hx => by simpa using BitVec.ne_of_lt (of_decide_eq_true hx)
  have hequal : xs.countP (fun x => ¬ decide (x ≠ v) = true) ≤ xs.countP (fun x => x ≤ v) :=
    List.countP_mono_left fun x _ hx => by
      obtain rfl : x = v := by simpa using hx
      simp
  have hall := xs.length_eq_countP_add_countP fun x => decide (x ≠ v)
  exact median_eq_of_countP (by omega) (by omega)

/-- Zeros and slots of `v > 0` have the median `v` exactly when the zeros do not reach up to the middle (R115 (c)). -/
theorem median_zeros_append {n a b : Nat} (hn : 0 < n) (hab : a + b = n) {v : Sample} (hv : 0 < v.toNat) :
    median n (List.replicate a 0 ++ List.replicate b v) = if a ≤ (n - 1) / 2 then v else 0 := by
  have hmid : (n - 1) / 2 < n := by omega
  have hlt : 0#12 < v := hv
  split
  · next h =>
    refine median_eq_of_countP ?_ ?_
    · simpa [List.countP_replicate, hlt] using h
    · simpa [List.countP_replicate, BitVec.le_of_lt hlt, hab] using hmid
  · next h =>
    refine median_eq_of_countP ?_ ?_
    · simp [List.countP_replicate]
    · exact Nat.lt_of_lt_of_le (Nat.lt_of_not_le h) (by simp [List.countP_replicate])

theorem median_replicate {n : Nat} (hn : 0 < n) (v : Sample) : median n (List.replicate n v) = v := by
  have hmid : (n - 1) / 2 < n := by omega
  exact median_eq_of_countP (by simp [List.countP_replicate]) (by simpa [List.countP_replicate] using hmid)

/-! ## One update (R111, R113, R114) -/

theorem windowSized_iff (s : State) : s.windowSized = true ↔ 1 ≤ s.cfg.n.toNat ∧ s.cfg.n.toNat ≤ 65535 :=
  decide_eq_true_iff

theorem exec_meduI {s : State} (hs : s.windowSized = true) (c : Chan) (x : Sample) :
    exec (.meduI c x) s = .next (s.medianUpdate c x).advance := if_pos hs

theorem exec_meduR_valid {s : State} {c : Chan} (hv : s.rawValid.get c = true) :
    exec (.meduR c) s = exec (.meduI c (s.raw.get c)) s := if_pos hv

theorem exec_meduR_missing {s : State} {c : Chan} (hv : s.rawValid.get c = false) :
    exec (.meduR c) s = .next (s.markMissing c).advance := if_neg (by simp [hv])

/-- The write pointer after an update: the sum does not wrap at its 16 bits. -/
theorem State.medianUpdate_wptr_toNat {s : State} (hs : s.windowSized = true) (c : Chan) (x : Sample) :
    ((s.medianUpdate c x).wptr.get c).toNat = ((s.wptr.get c).toNat + 1) % s.cfg.n.toNat := by
  obtain ⟨hpos, hle⟩ := (windowSized_iff s).1 hs
  have hlt := Nat.mod_lt ((s.wptr.get c).toNat + 1) hpos
  change ((s.wptr.set c _).get c).toNat = _
  rw [Quad.get_set_same, BitVec.toNat_ofNat, Nat.mod_eq_of_lt (by omega)]

theorem State.medianUpdate_win (s : State) (c : Chan) (x : Sample) :
    (s.medianUpdate c x).win.get c = (s.win.get c).set (s.wptr.get c).toNat x := Quad.get_set_same _ _ _

theorem State.medianUpdate_filt (s : State) (c : Chan) (x : Sample) :
    (s.medianUpdate c x).filt.get c = median s.cfg.n.toNat ((s.medianUpdate c x).win.get c) := Quad.get_set_same _ _ _

/-- The encoding of `MEDU.R`: opcode 0x30, the channel in bits 23:22 (30_encoding.md R60, R62). -/
theorem encode_meduR (c : Chan) : encode (.meduR c) = 0x30000000 ||| BitVec.ofNat 32 c.val <<< 22 := by
  revert c
  decide

/-- The encoding of `MEDU.I`: opcode 0x31, the channel in bits 23:22, the sample in bits 11:0 (30_encoding.md R60,
R62). -/
theorem encode_meduI (c : Chan) (x : Sample) :
    encode (.meduI c x) = 0x31000000 ||| BitVec.ofNat 32 c.val <<< 22 ||| x.setWidth 32 := by
  have hhead : ∀ c : Chan, (0x31#8 ++ chBits c).setWidth 32 <<< (10 + 12) ||| (0#10).setWidth 32 <<< 12 =
      (0x31000000 ||| BitVec.ofNat 32 c.val <<< 22 : Word) := by decide
  calc encode (.meduI c x) = (0x31#8 ++ chBits c ++ 0#10 ++ x).setWidth 32 := (BitVec.setWidth_eq _).symm
    _ = (0x31#8 ++ chBits c).setWidth 32 <<< (10 + 12) ||| (0#10).setWidth 32 <<< 12 ||| x.setWidth 32 :=
      BitVec.setWidth_append_append_eq_shiftLeft_setWidth_or
    _ = 0x31000000 ||| BitVec.ofNat 32 c.val <<< 22 ||| x.setWidth 32 := by rw [hhead]

/-- Settles O37: `MEDU.R` without a sample only marks it missing, and with one it is `MEDU.I` of that sample. -/
theorem meduEntersTheSample : Obligations.MeduEntersTheSample := by
  intro s c x
  refine ⟨encode_meduR c, encode_meduI c x, fun hv => ?missing, fun hpos hle => ?_⟩
  case missing => exact .of_advance (exec_meduR_missing hv) (s.markMissing_frame c) (by simp) ⟨rfl, rfl⟩
  intro entered
  have hs := (windowSized_iff s).2 ⟨hpos, hle⟩
  have hmeduI (y : Sample) : Completes (.meduI c y) s [.win, .wptr, .filt] (entered y) :=
    .of_advance (exec_meduI hs c y) (s.medianUpdate_frame c y) (by simp)
      ⟨s.medianUpdate_win c y, State.medianUpdate_wptr_toNat hs c y, s.medianUpdate_filt c y, .set _ _ _, .set _ _ _,
        .set _ _ _⟩
  refine ⟨fun hv => ?_, hmeduI x⟩
  obtain ⟨t, ht, h⟩ := hmeduI (s.raw.get c)
  exact ⟨t, (exec_meduR_valid hv).trans ht, h⟩

/-! ## The window as a queue -/

/-- Overwriting the slot at the pointer and moving the pointer on drops the oldest slot and appends the new one. -/
theorem rotate_set_succ {α : Type} {xs : List α} {p : Nat} (hp : p < xs.length) (v : α) :
    (xs.set p v).rotate ((p + 1) % xs.length) = (xs.rotate p).tail ++ [v] := by
  have hlen : (xs.set p v).length = xs.length := List.length_set
  calc (xs.set p v).rotate ((p + 1) % xs.length)
      = (xs.set p v).rotate (p + 1) := by rw [← hlen, List.rotate_mod]
    _ = (xs.set p v).drop (p + 1) ++ (xs.set p v).take (p + 1) := List.rotate_eq_drop_append_take (hlen ▸ hp)
    _ = xs.drop (p + 1) ++ (xs.take p ++ [v]) := by
      rw [List.drop_set_of_lt (Nat.lt_succ_self p), List.take_succ_eq_append_getElem (hlen ▸ hp),
        List.take_set_of_le (Nat.le_refl p), List.getElem_set_self]
    _ = (xs.rotate p).tail ++ [v] := by
      rw [List.rotate_eq_drop_append_take hp.le, ← List.append_assoc, List.drop_eq_getElem_cons hp]
      rfl

/-- Channel `c`'s window in `s` has the size that a legal `cfgN` gives it, and its slots, the oldest first, are `q`. -/
structure WindowHolds (s : State) (c : Chan) (q : List Sample) : Prop where
  sized : s.windowSized = true
  length : (s.win.get c).length = s.cfg.n.toNat
  pointer : (s.wptr.get c).toNat < s.cfg.n.toNat
  slots : (s.win.get c).rotate (s.wptr.get c).toNat = q

namespace WindowHolds
variable {s : State} {c : Chan} {q : List Sample}

theorem pos (h : WindowHolds s c q) : 0 < s.cfg.n.toNat := Nat.zero_lt_of_lt h.pointer

theorem queue_length (h : WindowHolds s c q) : q.length = s.cfg.n.toNat := by
  rw [← h.slots, List.length_rotate, h.length]

/-- The median of the window is the median of the queue. -/
theorem median_eq (h : WindowHolds s c q) (n : Nat) : median n (s.win.get c) = median n q :=
  median_congr n (h.slots ▸ (List.rotate_perm _ _).symm)

/-- An update drops the oldest sample and appends the new one (R111). -/
theorem update (h : WindowHolds s c q) (x : Sample) :
    WindowHolds (s.medianUpdate c x).advance c (q.tail ++ [x]) where
  sized := h.sized
  length := by
    rw [State.advance_win, State.medianUpdate_win, List.length_set]
    exact h.length
  pointer := by
    rw [State.advance_wptr, State.medianUpdate_wptr_toNat h.sized]
    exact Nat.mod_lt _ h.pos
  slots := by
    rw [State.advance_win, State.advance_wptr, State.medianUpdate_win, State.medianUpdate_wptr_toNat h.sized,
      ← h.slots, ← h.length]
    exact rotate_set_succ (h.length ▸ h.pointer) x

end WindowHolds

/-- `t` is `s` after updates of channel `c` that leave the queue `q`: the output is its median, the other outputs are as
before. -/
structure Updated (s : State) (c : Chan) (q : List Sample) (t : State) : Prop where
  window : WindowHolds t c q
  cfg : t.cfg = s.cfg
  output : t.filt.get c = median s.cfg.n.toNat q
  others : OthersKept c s.filt t.filt

theorem WindowHolds.updated {s : State} {c : Chan} {q : List Sample} (h : WindowHolds s c q) (x : Sample) :
    Updated s c (q.tail ++ [x]) (s.medianUpdate c x).advance where
  window := h.update x
  cfg := rfl
  output := (s.medianUpdate_filt c x).trans ((h.update x).median_eq _)
  others := .set _ _ _

/-- The last of several atomic steps. -/
theorem execTimes_succ_last {i : Instr} {n : Nat} {s t u : State} (h : execTimes n i s = .next t)
    (h' : exec i t = .next u) : execTimes (n + 1) i s = .next u :=
  (execTimes_add h 1).trans (execTimes_succ h' 0)

/-- Dropping the oldest sample and appending the new one moves the queue one place along the stream of old and new
samples. -/
theorem tail_drop_append_replicate {q : List Sample} (hq : 0 < q.length) (v : Sample) (k : Nat) :
    ((q ++ List.replicate k v).drop k).tail ++ [v] = (q ++ List.replicate (k + 1) v).drop (k + 1) := by
  have hk : k + 1 ≤ (q ++ List.replicate k v).length := by
    rw [List.length_append, List.length_replicate]
    omega
  rw [List.tail_drop, List.replicate_succ', ← List.append_assoc, List.drop_append_of_le_length hk]

/-- After one or more updates with the sample `v` the queue holds the last N samples of the stream of old and
new ones. -/
theorem execTimes_meduI {s : State} {c : Chan} {q : List Sample} (h : WindowHolds s c q) (v : Sample) (k : Nat) :
    ∃ t, execTimes (k + 1) (.meduI c v) s = .next t ∧
      Updated s c ((q ++ List.replicate (k + 1) v).drop (k + 1)) t := by
  have hq : 0 < q.length := h.queue_length ▸ h.pos
  induction k with
  | zero =>
    refine ⟨_, execTimes_succ (exec_meduI h.sized c v) 0, ?_⟩
    rw [← tail_drop_append_replicate hq, List.replicate_zero, List.append_nil, List.drop_zero]
    exact h.updated v
  | succ k ih =>
    obtain ⟨t, ht, hw, hcfg, -, hothers⟩ := ih
    refine ⟨_, execTimes_succ_last ht (exec_meduI hw.sized c v), ?_⟩
    rw [← tail_drop_append_replicate hq]
    obtain ⟨hw', hcfg', hout', hothers'⟩ := hw.updated v
    exact ⟨hw', hcfg'.trans hcfg, hcfg ▸ hout', fun d hd => (hothers' d hd).trans (hothers d hd)⟩

/-- Settles O40: N samples later nothing of the old window is left in the queue. -/
theorem constantSampleFillsTheWindow : Obligations.ConstantSampleFillsTheWindow := by
  intro s c v k hpos hle hlen hp hk
  have h : WindowHolds s c _ := ⟨(windowSized_iff s).2 ⟨hpos, hle⟩, hlen, hp, rfl⟩
  obtain ⟨k, rfl⟩ := Nat.exists_eq_add_of_le' (hpos.trans hk)
  obtain ⟨t, ht, -, -, hout, hothers⟩ := execTimes_meduI h v k
  refine ⟨t, ht, ?_, hothers⟩
  rw [hout, List.drop_append, List.drop_eq_nil_of_le (h.queue_length ▸ hk), List.nil_append, List.drop_replicate,
    h.queue_length, Nat.sub_sub_self hk, median_replicate hpos]

/-- Settles O41: after `k` updates N - k zeros are left, and the output turns once they do not reach the middle. -/
theorem constantSampleReachesOutputOnTime : Obligations.ConstantSampleReachesOutputOnTime := by
  intro s c v k hpos hle hwin hptr hv hk hkn
  have h : WindowHolds s c (List.replicate s.cfg.n.toNat 0) :=
    { sized := (windowSized_iff s).2 ⟨hpos, hle⟩
      length := by rw [hwin, List.length_replicate]
      pointer := by rw [hptr]; exact hpos
      slots := by rw [hwin, List.rotate_replicate] }
  obtain ⟨k, rfl⟩ := Nat.exists_eq_add_of_le' hk
  obtain ⟨t, ht, -, -, hout, -⟩ := execTimes_meduI h v k
  refine ⟨t, ht, ?_⟩
  rw [hout, List.drop_append_of_le_length (by simpa using hkn), List.drop_replicate,
    median_zeros_append hpos (by omega) hv]
  refine if_congr ?_ rfl rfl
  omega

end Sys2Proof.Machine
end


section
/-! The speed table, the draw ranges, the mode detector and the rate control (43_auto_mode.md sections 1 to 3). -/

namespace Sys2Proof.Machine

/-! ## The speed table (R124) -/

/-- A search below the last bound stops at the least entry whose bound exceeds the intensity. -/
theorem speedLookup_least {l : List (Nat × Nat)} {x : Nat} (hlast : l.getLast?.map Prod.fst = some 4096)
    (hx : x < 4096) : ∃ (i bound mag : Nat), l[i]? = some (bound, mag) ∧ x < bound ∧
      (∀ (j : Nat) (e : Nat × Nat), j < i → l[j]? = some e → e.1 ≤ x) ∧ speedLookup l x = mag := by
  induction l with
  | nil => simp at hlast
  | cons e l ih =>
    obtain ⟨bound, mag⟩ := e
    by_cases hb : x < bound
    · exact ⟨0, bound, mag, rfl, hb, fun j _ hj => absurd hj (Nat.not_lt_zero j), if_pos hb⟩
    · have hlast' : l.getLast?.map Prod.fst = some 4096 := by
        cases l with
        | nil => simp at hlast; omega
        | cons e' l' => simpa using hlast
      obtain ⟨i, bound', mag', hi, hlt, hleast, heq⟩ := ih hlast'
      refine ⟨i + 1, bound', mag', hi, hlt, fun j e' hj he' => ?_, (if_neg hb).trans heq⟩
      cases j with
      | zero =>
        obtain rfl : (bound, mag) = e' := Option.some.inj he'
        exact Nat.le_of_not_lt hb
      | succ j => exact hleast j e' (Nat.lt_of_succ_lt_succ hj) he'

/-- Where the magnitudes never rise along the table, a larger intensity never gets a larger one. -/
theorem speedLookup_antitone {l : List (Nat × Nat)} (hlast : l.getLast?.map Prod.fst = some 4096)
    (hp : l.Pairwise fun a b => a.1 < b.1 ∧ b.2 ≤ a.2) (h1 : ∀ e ∈ l, 1 ≤ e.2) {x y : Nat} (hxy : x ≤ y)
    (hy : y < 4096) : speedLookup l y ≤ speedLookup l x := by
  induction l with
  | nil => exact le_refl _
  | cons e l ih =>
    have hhead : ∀ e' ∈ e :: l, 1 ≤ e'.2 ∧ e'.2 ≤ e.2 := fun e' he' =>
      ⟨h1 e' he', (List.mem_cons.1 he').elim (fun h => h ▸ le_refl _) fun hm => (List.rel_of_pairwise_cons hp hm).2⟩
    by_cases hx : x < e.1
    · have hfirst : speedLookup (e :: l) x = e.2 := if_pos hx
      exact hfirst ▸ (speedLookup_bounds hlast hy hhead).2
    · have hrest {z : Nat} (hz : ¬ z < e.1) : speedLookup (e :: l) z = speedLookup l z := if_neg hz
      rw [hrest hx, hrest (by omega)]
      cases l with
      | nil => exact le_refl _
      | cons e' l' =>
        exact ih (by simpa using hlast) hp.of_cons fun e he => h1 e (List.mem_cons_of_mem _ he)

theorem head_magnitude_eq_loopMax {p : Params} (h : p.SpeedLegal) :
    p.speedTable.head?.map Prod.snd = some (loopMax p) := by
  obtain ⟨hlast, -, hpos⟩ := h
  unfold loopMax speedTable
  cases hl : p.speedTable with
  | nil => simp [hl] at hlast
  | cons e l =>
    have hfirst : speedLookup (e :: l) 0 = e.2 := if_pos (hpos e (by simp [hl])).1
    rw [hfirst]
    rfl

/-- Settles O45: a lookup stops at the least entry above the intensity, and the magnitudes fall along the table. -/
theorem speedTableIsAMonotoneStep : Obligations.SpeedTableIsAMonotoneStep := by
  intro p h
  obtain ⟨hlast, hp, hpos⟩ := id h
  exact ⟨fun x hx => speedLookup_least hlast hx,
    fun x y hxy hy => speedLookup_antitone hlast hp (fun e he => (hpos e he).2.1) hxy hy,
    fun x hx => speedLookup_bounds hlast hx (le_loopMax h), head_magnitude_eq_loopMax h⟩

/-! ## The draw ranges (R125) and injected answers (10_state.md R35) -/

theorem fracDen_pos {p : Params} (h : p.EngineLegal) : 0 < p.fracDen := by
  obtain ⟨-, -, -, -, hpos, hle, -⟩ := h
  omega

/-- `LoFrac` is the fraction rounded up. -/
theorem loFrac_rounds_up {p : Params} (h : p.EngineLegal) (m : Nat) :
    m * p.fracNum ≤ loFrac p m * p.fracDen ∧ loFrac p m * p.fracDen < m * p.fracNum + p.fracDen := by
  have hden := fracDen_pos h
  have hle := Nat.div_mul_le_self (m * p.fracNum + (p.fracDen - 1)) p.fracDen
  have hlt := Nat.lt_div_mul_add (a := m * p.fracNum + (p.fracDen - 1)) hden
  unfold loFrac
  omega

/-- A positive fraction of a positive magnitude is positive once it is rounded up. -/
theorem loFrac_pos {p : Params} (h : p.EngineLegal) {m : Nat} (hm : 1 ≤ m) : 1 ≤ loFrac p m := by
  have hden := fracDen_pos h
  obtain ⟨-, -, -, -, hnum, -⟩ := h
  have hprod := Nat.mul_pos hm hnum
  exact Nat.div_pos (by omega) hden

/-- `LoOff .. OFFSET_LIMIT_MAX` is a range. -/
theorem loOff_le {p : Params} (h : p.EngineLegal) : loOff p ≤ p.offsetLimitMax := loFrac_le h _

/-- An injected answer inside the range is the draw's value. -/
theorem State.drawn_injected {s : State} {v : Nat} {rest : List Nat} (h : s.env.draws = v :: rest) {lo hi : Nat}
    (hlo : lo ≤ v) (hhi : v ≤ hi) : s.drawn lo hi = v := by
  unfold State.drawn
  rw [h]
  exact inRange_of_mem ⟨hlo, hhi⟩

/-- The random source with the answers `ds` to come. -/
def State.withDraws (s : State) (ds : List Nat) : State := { s with env.draws := ds }

theorem State.withDraws_frame (s : State) (ds : List Nat) : OnlyChanges [.draws] s (s.withDraws ds) := by
  intro f hf
  cases f <;> first | rfl | exact fun _ => rfl | exact absurd (by simp) hf

/-- A draw consumes an injected answer. -/
theorem State.afterDraw_injected {s : State} {v : Nat} {rest : List Nat} (h : s.env.draws = v :: rest) :
    s.afterDraw = s.withDraws rest := by
  unfold State.afterDraw
  rw [h]
  rfl

/-- Settles O46: each range by the arithmetic of its rounding; a draw is an answer brought into its range. -/
theorem drawRangesAreKept : Obligations.DrawRangesAreKept := by
  intro p h
  obtain ⟨-, -, hmax, -, -, -, -, -, hcap, -⟩ := id h
  refine ⟨loFrac_rounds_up h, fun m hm => ⟨rfl, loLoop_bounds h hm⟩, ⟨rfl, loFrac_pos h hmax, loOff_le h⟩,
    fun x => ⟨Nat.div_mul_le_self _ _, Nat.lt_div_mul_add hcap⟩, fun s _ _ hle => s.drawn_bounds hle,
    fun s _ _ _ _ hd hlo hhi => ⟨State.drawn_injected hd hlo hhi, State.afterDraw_injected hd⟩⟩

/-! ## MODEDET (R120, R121) -/

theorem batchComplete_iff (valid : Quad Bool) : batchComplete valid = true ↔ ∀ c, valid.get c = true := by
  simp [batchComplete, Chan.forall_iff, Quad.get, and_assoc]

/-- All four readings are below the off-threshold. -/
def AllBelow (raw : Quad Sample) : Prop := ∀ c, (raw.get c).toNat < 10

/-- `r` alone is below the off-threshold, and the three others are above the on-threshold. -/
def Selects (raw : Quad Sample) (r : Chan) : Prop :=
  (raw.get r).toNat < 10 ∧ ∀ c, c ≠ r → 4000 < (raw.get c).toNat

/-- The channels below the off-threshold. -/
def belowSet (raw : Quad Sample) : Finset Chan := {c | (raw.get c).toNat < 10}

/-- The channels above the on-threshold. -/
def aboveSet (raw : Quad Sample) : Finset Chan := {c | 4000 < (raw.get c).toNat}

/-- The number of elements of a record that pass a test is the number of channels whose element does. -/
theorem countP_toList (q : Quad Sample) (P : Sample → Bool) :
    q.toList.countP P = (Finset.univ.filter fun c => P (q.get c) = true).card := by
  have hlist : q.toList = [q.get 0, q.get 1, q.get 2, q.get 3] := rfl
  simp only [Finset.card_filter, Fin.sum_univ_four, hlist, List.countP_cons, List.countP_nil]
  omega

theorem belowCount_eq_card (raw : Quad Sample) : belowCount raw = (belowSet raw).card := by
  simp [belowCount, countP_toList, belowSet, below, Config.offT]

theorem aboveCount_eq_card (raw : Quad Sample) : aboveCount raw = (aboveSet raw).card := by
  simp [aboveCount, countP_toList, aboveSet, above, Config.onT]

theorem belowCount_eq_four_iff (raw : Quad Sample) : belowCount raw = 4 ↔ AllBelow raw := by
  have hcard : belowCount raw = 4 ↔ belowSet raw = Finset.univ := by
    rw [belowCount_eq_card]
    exact Finset.card_eq_iff_eq_univ _
  simp [hcard, AllBelow, belowSet, Finset.ext_iff]

/-- `r` is selected when it is the only channel below, and the channels above are all the others. -/
theorem selects_iff (raw : Quad Sample) (r : Chan) :
    Selects raw r ↔ belowSet raw = {r} ∧ aboveSet raw = {r}ᶜ := by
  simp only [Selects, belowSet, aboveSet, Finset.ext_iff, Finset.mem_filter_univ, Finset.mem_singleton,
    Finset.mem_compl]
  refine ⟨fun ⟨hr, ho⟩ => ⟨fun c => ?_, fun c => ?_⟩, fun ⟨hb, ha⟩ => ⟨(hb r).2 rfl, fun c => (ha c).2⟩⟩
  · exact ⟨fun hc => by_contra fun hne => by have := ho c hne; omega, fun hc => hc ▸ hr⟩
  · exact ⟨fun hc he => by subst he; omega, ho c⟩

/-- One below and three above: no channel is both, so the three above are the channels that are not the one below. -/
theorem counts_iff_selects (raw : Quad Sample) :
    belowCount raw = 1 ∧ aboveCount raw = 3 ↔ ∃ r, Selects raw r := by
  simp only [selects_iff, belowCount_eq_card, aboveCount_eq_card, Finset.card_eq_one]
  constructor
  · rintro ⟨⟨r, hr⟩, ha⟩
    refine ⟨r, hr, Finset.eq_of_subset_of_card_le (fun c hc => ?_) (by rw [ha, Finset.card_compl]; rfl)⟩
    rw [← hr]
    simp only [belowSet, aboveSet, Finset.mem_filter_univ, Finset.mem_compl] at hc ⊢
    omega
  · rintro ⟨r, hb, ha⟩
    exact ⟨⟨r, hb⟩, by rw [ha, Finset.card_compl]; rfl⟩

/-- The rate channel chosen is the one below the threshold. -/
theorem belowChan_of_selects {raw : Quad Sample} {r : Chan} (h : Selects raw r) : belowChan raw = r := by
  have hb (c : Chan) : below (raw.get c).toNat = true ↔ c = r := by
    have := (Finset.ext_iff.1 ((selects_iff raw r).1 h).1) c
    simpa [belowSet, below, Config.offT] using this
  have h0 : below raw.c0.toNat = true ↔ 0 = r := hb 0
  have h1 : below raw.c1.toNat = true ↔ 1 = r := hb 1
  have h2 : below raw.c2.toNat = true ↔ 2 = r := hb 2
  have hfirst : ∀ r : Chan, (if 0 = r then 0 else if 1 = r then 1 else if 2 = r then 2 else 3) = r := by decide
  simp only [belowChan, h0, h1, h2, hfirst]

theorem State.detectMode_off {s : State} (hc : ∀ c, s.rawValid.get c = true) (h : AllBelow s.raw) :
    s.detectMode = { s with autoMode := false } := by
  unfold State.detectMode
  rw [if_pos ((batchComplete_iff _).2 hc), if_pos ((belowCount_eq_four_iff _).2 h)]

theorem State.detectMode_on {s : State} (hc : ∀ c, s.rawValid.get c = true) {r : Chan} (h : Selects s.raw r) :
    s.detectMode = { s with
      speedValid := s.speedValid && s.autoMode && decide (s.rateChan = r)
      autoMode := true
      rateChan := r } := by
  have hcounts := (counts_iff_selects s.raw).2 ⟨r, h⟩
  unfold State.detectMode
  rw [if_pos ((batchComplete_iff _).2 hc), if_neg (by rw [hcounts.1]; decide), if_pos hcounts, belowChan_of_selects h]

theorem State.detectMode_unchanged {s : State}
    (h : ¬ (∀ c, s.rawValid.get c = true) ∨ (¬ AllBelow s.raw ∧ ∀ r, ¬ Selects s.raw r)) : s.detectMode = s := by
  unfold State.detectMode
  by_cases hc : ∀ c, s.rawValid.get c = true
  · obtain ⟨hall, hsel⟩ := h.resolve_left (not_not_intro hc)
    rw [if_neg (mt (belowCount_eq_four_iff _).1 hall), if_neg (mt (counts_iff_selects _).1 (not_exists.2 hsel)),
      ite_self]
  · exact if_neg (mt (batchComplete_iff _).1 hc)

theorem State.setAutoMode_frame (s : State) (b : Bool) : OnlyChanges [.autoMode] s { s with autoMode := b } := by
  intro f hf
  cases f <;> first | rfl | exact fun _ => rfl | exact absurd (by simp) hf

/-- `MODEDET` decides the mode and moves on. -/
theorem exec_modedet (s : State) : exec .modedet s = .next s.detectMode.advance := rfl

/-- Settles O43: the counts of the detector distinguish the three patterns. -/
theorem modedetFollowsTheRawReadings : Obligations.ModedetFollowsTheRawReadings := by
  refine ⟨by decide, fun s => ⟨fun hc hall => ?_, fun r hc hsel => ?_, fun h => ?_⟩⟩
  · exact .of_advance ((exec_modedet s).trans (by rw [State.detectMode_off hc hall]))
      (s.setAutoMode_frame false) (by decide) rfl
  · refine .of_advance (exec_modedet s) s.detectMode_frame (by decide) ?_
    rw [State.detectMode_on hc hsel]
    refine ⟨rfl, rfl, ?_⟩
    change (s.speedValid && s.autoMode && decide (s.rateChan = r)) = _
    by_cases hr : s.rateChan = r <;> cases s.autoMode <;> simp [hr]
  · exact .of_advance ((exec_modedet s).trans (by rw [State.detectMode_unchanged h])) (OnlyChanges.refl _ _)
      (by decide) trivial

/-! ## RATEUPD (R126) -/

theorem State.rateMagnitude_toNat {s : State} (h : s.params.SpeedLegal) :
    (BitVec.ofNat 32 s.rateMagnitude).toNat = s.rateMagnitude := by
  rw [BitVec.toNat_ofNat, Nat.mod_eq_of_lt ((State.rateMagnitude_bounds h).2.trans_lt (loopMax_lt h))]

theorem State.raisePending_rateChan (s : State) : s.raisePending.auto.get s.rateChan = s.auto.get s.rateChan := by
  simp [State.raisePending]

theorem State.raisePending_other (s : State) {c : Chan} (h : c ≠ s.rateChan) :
    (s.raisePending.auto.get c).ratePend = true := by
  simp [State.raisePending, h]

/-- A magnitude taken for the rate channel's speed. -/
def State.setSpeed (s : State) (mag : BitVec 32) : State := { s with speedMag := mag, speedValid := true }

theorem State.setSpeed_frame (s : State) (mag : BitVec 32) :
    OnlyChanges [.speedMag, .speedValid] s (s.setSpeed mag) := by
  intro f hf
  cases f <;> first | rfl | exact fun _ => rfl | exact absurd (by simp) hf

theorem exec_rateupd_kept {s : State}
    (h : s.autoMode = false ∨ (s.speedValid = true ∧ s.rateMagnitude = s.speedMag.toNat)) :
    exec .rateupd s = .next s.advance := by
  refine if_neg fun ⟨hm, hv⟩ => ?_
  simp_all

theorem exec_rateupd_taken {s : State} (hm : s.autoMode = true)
    (h : s.speedValid = false ∨ s.rateMagnitude ≠ s.speedMag.toNat) :
    exec .rateupd s = .next (s.raisePending.setSpeed (BitVec.ofNat 32 s.rateMagnitude)).advance := if_pos ⟨hm, h⟩

/-- Settles O44: the test of the rule, and the registers it writes. -/
theorem rateupdTakesTheSpeed : Obligations.RateupdTakesTheSpeed := by
  refine ⟨by decide, fun s => ⟨fun h => ?_, fun hm h hp => ?_⟩⟩
  · exact .of_advance (exec_rateupd_kept h) (OnlyChanges.refl _ _) (by decide) trivial
  · refine .of_advance (exec_rateupd_taken hm h) ?_ (by decide)
      ⟨State.rateMagnitude_toNat hp, rfl, congrArg AutoState.ratePend s.raisePending_rateChan,
        fun c hc => s.raisePending_other hc⟩
    exact (s.raisePending_frame.mono (by simp)).trans ((State.setSpeed_frame _ _).mono (by simp))

end Sys2Proof.Machine
end


section
/-! The per-channel state machine (43_auto_mode.md section 4): each randomization is one check of the channel's state,
made with the coin and the value its answers give; `AUTOSTEP` is steps 1 to 3 and, at a boundary hit, the two checks. -/

namespace Sys2Proof

@[simp] theorem Quad.set_set {α : Type} (q : Quad α) (c : Chan) (v w : α) : (q.set c v).set c w = q.set c w := by
  refine Quad.ext_get fun d => ?_
  simp only [Quad.get_set]
  split <;> rfl

namespace Machine

/-! ## Frames of a channel's state -/

/-- The element has the same value in both states of a channel. -/
def AutoState.Same (a b : AutoState) : Field → Prop
  | .loopCounter => b.loopCounter = a.loopCounter
  | .loopLimit => b.loopLimit = a.loopLimit
  | .offset => b.offset = a.offset
  | .offsetDelta => b.offsetDelta = a.offsetDelta
  | .offsetLimit => b.offsetLimit = a.offsetLimit
  | .tLoopRand => b.tLoopRand = a.tLoopRand
  | .tOffRand => b.tOffRand = a.tOffRand
  | .ratePend => b.ratePend = a.ratePend
  | _ => True

theorem AutoState.Same.trans {a b b' : AutoState} {f : Field} (h : a.Same b f) (h' : b.Same b' f) : a.Same b' f := by
  cases f <;> first | exact Eq.trans h' h | exact True.intro

/-- Replacing a channel's state changes the elements in which the new one differs. -/
theorem OnlyChanges.setAuto {s : State} {c : Chan} {b : AutoState} {l : List Field}
    (h : ∀ f ∉ l, (s.auto.get c).Same b f) : OnlyChanges l s (s.setAuto c b) := by
  have hother {α : Type} (g : AutoState → α) (hg : g b = g (s.auto.get c)) (d : Chan) :
      g ((s.auto.set c b).get d) = g (s.auto.get d) := by
    rw [Quad.get_set]
    split
    · next hd => rw [hg, hd]
    · rfl
  intro f hf
  have hs := h f hf
  cases f
  case loopCounter => exact hother AutoState.loopCounter hs
  case loopLimit => exact hother AutoState.loopLimit hs
  case offset => exact hother AutoState.offset hs
  case offsetDelta => exact hother AutoState.offsetDelta hs
  case offsetLimit => exact hother AutoState.offsetLimit hs
  case tLoopRand => exact hother AutoState.tLoopRand hs
  case tOffRand => exact hother AutoState.tOffRand hs
  case ratePend => exact hother AutoState.ratePend hs
  all_goals rfl

/-- Answers taken and a channel's state replaced. -/
theorem OnlyChanges.withDraws_setAuto {s : State} {ds : List Nat} {c : Chan} {b : AutoState} {l : List Field}
    (hl : .draws ∈ l) (h : ∀ f ∉ l, (s.auto.get c).Same b f) : OnlyChanges l s ((s.withDraws ds).setAuto c b) :=
  ((s.withDraws_frame ds).mono (by simpa using hl)).trans (.setAuto h)

/-! ## A replaced channel state and the random source -/

@[simp] theorem State.setAuto_setAuto (s : State) (c : Chan) (a b : AutoState) :
    (s.setAuto c a).setAuto c b = s.setAuto c b := by
  simp [State.setAuto]

theorem State.setAuto_get_self (s : State) (c : Chan) : s.setAuto c (s.auto.get c) = s := by
  simp [State.setAuto, Quad.set_get_self]

@[simp] theorem State.afterDraw_setAuto (s : State) (c : Chan) (a : AutoState) :
    (s.setAuto c a).afterDraw = s.afterDraw.setAuto c a := by
  cases h : s.env.draws <;> simp [State.afterDraw, h] <;> rfl

@[simp] theorem State.drawn_setAuto (s : State) (c : Chan) (a : AutoState) (lo hi : Nat) :
    (s.setAuto c a).drawn lo hi = s.drawn lo hi := rfl

@[simp] theorem State.rateMagnitude_setAuto (s : State) (c : Chan) (a : AutoState) :
    (s.setAuto c a).rateMagnitude = s.rateMagnitude := rfl

@[simp] theorem State.rateMagnitude_afterDraw (s : State) : s.afterDraw.rateMagnitude = s.rateMagnitude := by
  simp [State.rateMagnitude]

/-- Another random source: its injected answers and its place among the free ones. -/
def State.withSource (s : State) (ds : List Nat) (n : Nat) : State := { s with env.draws := ds, env.freeIx := n }

theorem State.withSource_frame (s : State) (ds : List Nat) (n : Nat) :
    OnlyChanges [.draws, .freeIx] s (s.withSource ds n) := by
  intro f hf
  cases f <;> first | rfl | exact fun _ => rfl | exact absurd (by simp) hf

/-- A draw moves the random source and nothing else. -/
theorem State.afterDraw_eq_withSource (s : State) : ∃ ds n, s.afterDraw = s.withSource ds n := by
  unfold State.afterDraw
  split <;> exact ⟨_, _, rfl⟩

/-! ## The answers of one check (R130 to R132) -/

/-- The coin a check draws. -/
def State.coinDrawn (s : State) : Nat := s.drawn 0 (s.params.probDen - 1)

theorem State.coin_eq (s : State) : s.coin = decide (s.coinDrawn < s.params.probNum) := rfl

/-- The random source after a check at `t` of a randomization last checked at `stamp`: no draw inside the cooldown, else
the coin, and the value when the coin succeeds. -/
def State.afterCheck (s : State) (stamp t : Time) : State :=
  if stamp.toNat + 5000 ≤ t.toNat then
    if s.coinDrawn < s.params.probNum then s.afterDraw.afterDraw else s.afterDraw
  else s

/-- The answers such a check consumes. -/
def checkDraws (p : Params) (stamp t : Time) (coin d : Nat) : List Nat :=
  if stamp.toNat + 5000 ≤ t.toNat then if coin < p.probNum then [coin, d] else [coin] else []

theorem State.afterCheck_eq_withSource (s : State) (stamp t : Time) :
    ∃ ds n, s.afterCheck stamp t = s.withSource ds n := by
  unfold State.afterCheck
  split
  · obtain ⟨ds, n, h⟩ := s.afterDraw_eq_withSource
    split
    · obtain ⟨ds', n', h'⟩ := s.afterDraw.afterDraw_eq_withSource
      exact ⟨ds', n', by rw [h', h]; rfl⟩
    · exact ⟨ds, n, h⟩
  · exact ⟨s.env.draws, s.env.freeIx, rfl⟩

@[simp] theorem State.afterCheck_setAuto (s : State) (c : Chan) (a : AutoState) (stamp t : Time) :
    (s.setAuto c a).afterCheck stamp t = (s.afterCheck stamp t).setAuto c a := by
  unfold State.afterCheck
  simp only [State.afterDraw_setAuto, State.setAuto_params]
  split
  · exact (apply_ite (State.setAuto · c a) _ _ _).symm
  · rfl

/-- Injected answers are taken by a check in their order, and no more of them than it needs. -/
theorem State.afterCheck_injected {s : State} {stamp t : Time} {coin d : Nat} {rest : List Nat}
    (h : s.env.draws = checkDraws s.params stamp t coin d ++ rest) (hcoin : coin < s.params.probDen) :
    s.afterCheck stamp t = s.withDraws rest ∧ (stamp.toNat + 5000 ≤ t.toNat → s.coinDrawn = coin) ∧
      (stamp.toNat + 5000 ≤ t.toNat → coin < s.params.probNum → ∀ {lo hi}, lo ≤ d → d ≤ hi →
        s.afterDraw.drawn lo hi = d) := by
  unfold checkDraws at h
  unfold State.afterCheck
  by_cases hdue : stamp.toNat + 5000 ≤ t.toNat
  · have hdrawn {ds : List Nat} (hds : s.env.draws = coin :: ds) : s.coinDrawn = coin :=
      State.drawn_injected hds (Nat.zero_le _) (by omega)
    by_cases hwin : coin < s.params.probNum
    · simp only [if_pos hdue, if_pos hwin] at h
      have hdraw := State.afterDraw_injected h
      rw [if_pos hdue, if_pos (by rwa [hdrawn h]), hdraw]
      exact ⟨rfl, fun _ => hdrawn h, fun _ _ => State.drawn_injected rfl⟩
    · simp only [if_pos hdue, if_neg hwin] at h
      rw [if_pos hdue, if_neg (by rwa [hdrawn h])]
      exact ⟨State.afterDraw_injected h, fun _ => hdrawn h, fun _ hw => absurd hw hwin⟩
  · simp only [if_neg hdue] at h
    rw [if_neg hdue]
    exact ⟨by rw [← show s.env.draws = rest from h]; rfl, fun hd => absurd hd hdue, fun hd => absurd hd hdue⟩

/-! ## The offset-size check on the channel's state (R130, R131) -/

/-- The offset-size check at `t` with its two answers. -/
def AutoState.checkOffset (p : Params) (filt : Sample) (t : Time) (coin d : Nat) (a : AutoState) : AutoState :=
  if a.tOffRand.toNat + 5000 ≤ t.toNat then
    if coin < p.probNum then { a with tOffRand := t }.limitOffset p filt d else { a with tOffRand := t }
  else a

section
variable {p : Params} {filt : Sample} {t : Time} {coin d : Nat} {a : AutoState}

theorem AutoState.checkOffset_running (h : t.toNat < a.tOffRand.toNat + 5000) :
    a.checkOffset p filt t coin d = a := if_neg (Nat.not_le_of_lt h)

theorem AutoState.checkOffset_fails (h : a.tOffRand.toNat + 5000 ≤ t.toNat) (hc : p.probNum ≤ coin) :
    a.checkOffset p filt t coin d = { a with tOffRand := t } := (if_pos h).trans (if_neg (Nat.not_lt_of_le hc))

theorem AutoState.checkOffset_succeeds (h : a.tOffRand.toNat + 5000 ≤ t.toNat) (hc : coin < p.probNum) :
    a.checkOffset p filt t coin d = { a with tOffRand := t }.limitOffset p filt d := (if_pos h).trans (if_pos hc)

/-- The check reads the coin when it is made, and the value when the coin succeeds. -/
theorem AutoState.checkOffset_congr {coin' d' : Nat} (hc : a.tOffRand.toNat + 5000 ≤ t.toNat → coin = coin')
    (hd : a.tOffRand.toNat + 5000 ≤ t.toNat → coin' < p.probNum → d = d') :
    a.checkOffset p filt t coin d = a.checkOffset p filt t coin' d' := by
  by_cases h : a.tOffRand.toNat + 5000 ≤ t.toNat
  · by_cases hw : coin' < p.probNum
    · rw [hc h, hd h hw]
    · rw [hc h, checkOffset_fails h (Nat.le_of_not_lt hw), checkOffset_fails h (Nat.le_of_not_lt hw)]
  · rw [checkOffset_running (Nat.lt_of_not_le h), checkOffset_running (Nat.lt_of_not_le h)]

theorem AutoState.checkOffset_kept (f : Field) (hf : f ∉ [Field.offset, .offsetLimit, .tOffRand]) :
    a.Same (a.checkOffset p filt t coin d) f := by
  unfold AutoState.checkOffset
  split
  · split <;> cases f <;> first | rfl | exact True.intro | exact absurd (by simp) hf
  · cases f <;> first | rfl | exact True.intro

/-- A new offset limit, and the offset pulled inside it, over the integers. -/
theorem AutoState.limitOffset_values (hd : d ≤ 32767) :
    (a.limitOffset p filt d).offsetLimit.toNat = min d (intCap p filt.toNat) ∧
      (a.limitOffset p filt d).offset.toInt = clampOffset a.offset.toInt (min d (intCap p filt.toNat)) := by
  refine ⟨?_, clampOffset_toInt _ (by omega)⟩
  simp only [AutoState.limitOffset, BitVec.toNat_ofNat]
  omega

theorem AutoState.checkOffset_tOffRand :
    (a.checkOffset p filt t coin d).tOffRand = if a.tOffRand.toNat + 5000 ≤ t.toNat then t else a.tOffRand := by
  unfold AutoState.checkOffset
  split
  · split <;> rfl
  · rfl

/-- The limit and the offset change when the check is made and its coin succeeds. -/
theorem AutoState.checkOffset_values (hd : d ≤ 32767) :
    ((a.checkOffset p filt t coin d).offsetLimit.toNat =
        if a.tOffRand.toNat + 5000 ≤ t.toNat ∧ coin < p.probNum then min d (intCap p filt.toNat)
        else a.offsetLimit.toNat) ∧
      (a.checkOffset p filt t coin d).offset.toInt =
        if a.tOffRand.toNat + 5000 ≤ t.toNat ∧ coin < p.probNum then
          clampOffset a.offset.toInt (min d (intCap p filt.toNat))
        else a.offset.toInt := by
  by_cases h : a.tOffRand.toNat + 5000 ≤ t.toNat
  · by_cases hw : coin < p.probNum
    · rw [checkOffset_succeeds h hw, if_pos ⟨h, hw⟩, if_pos ⟨h, hw⟩]
      exact limitOffset_values hd
    · rw [checkOffset_fails h (Nat.le_of_not_lt hw), if_neg fun hh => hw hh.2, if_neg fun hh => hw hh.2]
      exact ⟨rfl, rfl⟩
  · rw [checkOffset_running (Nat.lt_of_not_le h), if_neg fun hh => h hh.1, if_neg fun hh => h hh.1]
    exact ⟨rfl, rfl⟩

end

/-- `RandOff` is this check, with the answers the random source gives. -/
theorem randOff_eq (c : Chan) (t : Time) (s : State) :
    randOff c t s = (s.afterCheck (s.auto.get c).tOffRand t).setAuto c
      ((s.auto.get c).checkOffset s.params (s.filt.get c) t s.coinDrawn
        (s.afterDraw.drawn (loOff s.params) s.params.offsetLimitMax)) := by
  unfold randOff State.afterCheck AutoState.checkOffset
  by_cases hdue : (s.auto.get c).tOffRand.toNat + 5000 ≤ t.toNat
  · by_cases hcoin : s.coinDrawn < s.params.probNum <;> simp [hdue, hcoin, Config.cooldown, State.coin_eq]
  · simp [hdue, Config.cooldown, State.setAuto_get_self]

theorem randOff_injected {c : Chan} {t : Time} {s : State} {coin d : Nat} {rest : List Nat}
    (h : s.env.draws = checkDraws s.params (s.auto.get c).tOffRand t coin d ++ rest) (hcoin : coin < s.params.probDen)
    (hlo : loOff s.params ≤ d) (hhi : d ≤ s.params.offsetLimitMax) :
    randOff c t s = (s.withDraws rest).setAuto c
      ((s.auto.get c).checkOffset s.params (s.filt.get c) t coin d) := by
  obtain ⟨hs, hc, hd⟩ := State.afterCheck_injected h hcoin
  rw [randOff_eq, hs, AutoState.checkOffset_congr hc fun hdue hw => hd hdue hw hlo hhi]

/-- Settles O49: `RandOff` is the channel's check with the injected answers it needs. -/
theorem randOffDrawsOncePerCooldown : Obligations.RandOffDrawsOncePerCooldown := by
  intro c t s coin d rest hinv hdraws hcoin hlo hhi
  have hmax := hinv.1.engine.offsetLimitMax_le
  refine ⟨fun h => ?running, fun h hc => ?fails, fun h hc => ?succeeds⟩
  case running =>
    rw [randOff_eq, AutoState.checkOffset_running h, State.afterCheck, if_neg (Nat.not_le_of_lt h),
      State.setAuto_get_self]
  case fails =>
    have hr := randOff_injected (c := c) (t := t) (rest := d :: rest)
      (by rw [hdraws, checkDraws, if_pos h, if_neg (Nat.not_lt_of_le hc)]; rfl) hcoin hlo hhi
    rw [AutoState.checkOffset_fails h hc] at hr
    rw [hr]
    refine ⟨rfl, Quad.get_set_same _ _ _, .withDraws_setAuto (by simp) fun f hf => ?_, .set _ _ _⟩
    cases f <;> first | rfl | exact True.intro | exact absurd (by simp) hf
  case succeeds =>
    have hr := randOff_injected (c := c) (t := t) (rest := rest)
      (by rw [hdraws, checkDraws, if_pos h, if_pos hc]; rfl) hcoin hlo hhi
    rw [AutoState.checkOffset_succeeds h hc] at hr
    obtain ⟨hlimit, hoffset⟩ := AutoState.limitOffset_values (p := s.params) (filt := s.filt.get c)
      (a := { s.auto.get c with tOffRand := t }) (d := d) (by omega)
    rw [hr, State.setAuto_auto, Quad.get_set_same, hoffset, hlimit]
    refine ⟨rfl, rfl, rfl, rfl, .withDraws_setAuto (by simp) fun f hf => ?_, .set _ _ _⟩
    cases f <;> first | rfl | exact True.intro | exact absurd (by simp) hf

/-! ## The loop-size check on the channel's state (R131, R132) -/

/-- The loop-size check at `t` with its two answers. -/
def AutoState.checkLoop (p : Params) (t : Time) (coin d : Nat) (a : AutoState) : AutoState :=
  if a.tLoopRand.toNat + 5000 ≤ t.toNat then
    if coin < p.probNum then { a with tLoopRand := t, loopLimit := BitVec.ofNat 32 d } else { a with tLoopRand := t }
  else a

section
variable {p : Params} {t : Time} {coin d : Nat} {a : AutoState}

theorem AutoState.checkLoop_running (h : t.toNat < a.tLoopRand.toNat + 5000) :
    a.checkLoop p t coin d = a := if_neg (Nat.not_le_of_lt h)

theorem AutoState.checkLoop_fails (h : a.tLoopRand.toNat + 5000 ≤ t.toNat) (hc : p.probNum ≤ coin) :
    a.checkLoop p t coin d = { a with tLoopRand := t } := (if_pos h).trans (if_neg (Nat.not_lt_of_le hc))

theorem AutoState.checkLoop_succeeds (h : a.tLoopRand.toNat + 5000 ≤ t.toNat) (hc : coin < p.probNum) :
    a.checkLoop p t coin d = { a with tLoopRand := t, loopLimit := BitVec.ofNat 32 d } :=
  (if_pos h).trans (if_pos hc)

/-- The check reads the coin when it is made, and the value when the coin succeeds. -/
theorem AutoState.checkLoop_congr {coin' d' : Nat} (hc : a.tLoopRand.toNat + 5000 ≤ t.toNat → coin = coin')
    (hd : a.tLoopRand.toNat + 5000 ≤ t.toNat → coin' < p.probNum → d = d') :
    a.checkLoop p t coin d = a.checkLoop p t coin' d' := by
  by_cases h : a.tLoopRand.toNat + 5000 ≤ t.toNat
  · by_cases hw : coin' < p.probNum
    · rw [hc h, hd h hw]
    · rw [hc h, checkLoop_fails h (Nat.le_of_not_lt hw), checkLoop_fails h (Nat.le_of_not_lt hw)]
  · rw [checkLoop_running (Nat.lt_of_not_le h), checkLoop_running (Nat.lt_of_not_le h)]

theorem AutoState.checkLoop_kept (f : Field) (hf : f ∉ [Field.loopLimit, .tLoopRand]) :
    a.Same (a.checkLoop p t coin d) f := by
  unfold AutoState.checkLoop
  split
  · split <;> cases f <;> first | rfl | exact True.intro | exact absurd (by simp) hf
  · cases f <;> first | rfl | exact True.intro

theorem AutoState.checkLoop_tLoopRand :
    (a.checkLoop p t coin d).tLoopRand = if a.tLoopRand.toNat + 5000 ≤ t.toNat then t else a.tLoopRand := by
  unfold AutoState.checkLoop
  split
  · split <;> rfl
  · rfl

/-- The loop limit changes when the check is made and its coin succeeds. -/
theorem AutoState.checkLoop_loopLimit (hd : d < 2 ^ 32) : (a.checkLoop p t coin d).loopLimit.toNat =
    if a.tLoopRand.toNat + 5000 ≤ t.toNat ∧ coin < p.probNum then d else a.loopLimit.toNat := by
  by_cases h : a.tLoopRand.toNat + 5000 ≤ t.toNat
  · by_cases hw : coin < p.probNum
    · rw [checkLoop_succeeds h hw, if_pos ⟨h, hw⟩]
      exact Nat.mod_eq_of_lt hd
    · rw [checkLoop_fails h (Nat.le_of_not_lt hw), if_neg fun hh => hw hh.2]
  · rw [checkLoop_running (Nat.lt_of_not_le h), if_neg fun hh => h hh.1]

end

/-- `RandLoop` is this check, with the answers the random source gives. -/
theorem randLoop_eq (c : Chan) (t : Time) (s : State) :
    randLoop c t s = (s.afterCheck (s.auto.get c).tLoopRand t).setAuto c
      ((s.auto.get c).checkLoop s.params t s.coinDrawn
        (s.afterDraw.drawn (loLoop s.params s.rateMagnitude) s.rateMagnitude)) := by
  unfold randLoop State.afterCheck AutoState.checkLoop
  by_cases hdue : (s.auto.get c).tLoopRand.toNat + 5000 ≤ t.toNat
  · by_cases hcoin : s.coinDrawn < s.params.probNum <;> simp [hdue, hcoin, Config.cooldown, State.coin_eq]
  · simp [hdue, Config.cooldown, State.setAuto_get_self]

theorem randLoop_injected {c : Chan} {t : Time} {s : State} {coin d : Nat} {rest : List Nat}
    (h : s.env.draws = checkDraws s.params (s.auto.get c).tLoopRand t coin d ++ rest)
    (hcoin : coin < s.params.probDen) (hlo : loLoop s.params s.rateMagnitude ≤ d) (hhi : d ≤ s.rateMagnitude) :
    randLoop c t s = (s.withDraws rest).setAuto c ((s.auto.get c).checkLoop s.params t coin d) := by
  obtain ⟨hs, hc, hd⟩ := State.afterCheck_injected h hcoin
  rw [randLoop_eq, hs, AutoState.checkLoop_congr hc fun hdue hw => hd hdue hw hlo hhi]

/-- `RandLoop` on its own: the channel's check with the injected answers it needs (R131, R132). -/
theorem randLoop_draws_once {c : Chan} {t : Time} {s : State} {coin d : Nat} {rest : List Nat} (hinv : EngineInv s)
    (hdraws : s.env.draws = coin :: d :: rest) (hcoin : coin < s.params.probDen)
    (hlo : loLoop s.params s.rateMagnitude ≤ d) (hhi : d ≤ s.rateMagnitude) :
    (t.toNat < (s.auto.get c).tLoopRand.toNat + 5000 → randLoop c t s = s) ∧
    ((s.auto.get c).tLoopRand.toNat + 5000 ≤ t.toNat → s.params.probNum ≤ coin →
      (randLoop c t s).env.draws = d :: rest ∧ (randLoop c t s).auto.get c = { s.auto.get c with tLoopRand := t } ∧
        OnlyChanges [.tLoopRand, .draws] s (randLoop c t s) ∧ OthersKept c s.auto (randLoop c t s).auto) ∧
    ((s.auto.get c).tLoopRand.toNat + 5000 ≤ t.toNat → coin < s.params.probNum →
      (randLoop c t s).env.draws = rest ∧ ((randLoop c t s).auto.get c).tLoopRand = t ∧
        ((randLoop c t s).auto.get c).loopLimit.toNat = d ∧
        OnlyChanges [.tLoopRand, .draws, .loopLimit] s (randLoop c t s) ∧
        OthersKept c s.auto (randLoop c t s).auto) := by
  have hmax := (State.rateMagnitude_bounds hinv.1.speed).2
  have hlt := loopMax_lt hinv.1.speed
  refine ⟨fun h => ?running, fun h hc => ?fails, fun h hc => ?succeeds⟩
  case running =>
    rw [randLoop_eq, AutoState.checkLoop_running h, State.afterCheck, if_neg (Nat.not_le_of_lt h),
      State.setAuto_get_self]
  case fails =>
    have hr := randLoop_injected (c := c) (t := t) (rest := d :: rest)
      (by rw [hdraws, checkDraws, if_pos h, if_neg (Nat.not_lt_of_le hc)]; rfl) hcoin hlo hhi
    rw [AutoState.checkLoop_fails h hc] at hr
    rw [hr]
    refine ⟨rfl, Quad.get_set_same _ _ _, .withDraws_setAuto (by simp) fun f hf => ?_, .set _ _ _⟩
    cases f <;> first | rfl | exact True.intro | exact absurd (by simp) hf
  case succeeds =>
    have hr := randLoop_injected (c := c) (t := t) (rest := rest)
      (by rw [hdraws, checkDraws, if_pos h, if_pos hc]; rfl) hcoin hlo hhi
    rw [AutoState.checkLoop_succeeds h hc] at hr
    rw [hr, State.setAuto_auto, Quad.get_set_same]
    refine ⟨rfl, rfl, Nat.mod_eq_of_lt (by omega), .withDraws_setAuto (by simp) fun f hf => ?_, .set _ _ _⟩
    cases f <;> first | rfl | exact True.intro | exact absurd (by simp) hf

/-! ## AUTOSTEP: the bypass and the output (R123, R127) -/

theorem State.engineActive_iff (s : State) (c : Chan) :
    s.engineActive c = true ↔ s.autoMode = true ∧ c ≠ s.rateChan ∧ 10 < (s.filt.get c).toNat := by
  simp only [State.engineActive, Bool.and_eq_true, decide_eq_true_eq, and_assoc]
  rfl

theorem exec_autostep_active {s : State} {c : Chan} (h : s.engineActive c = true) :
    exec (.autostep c) s = .next ((s.advanceEngine c).outputBiased c).advance := if_pos h

theorem exec_autostep_bypass {s : State} {c : Chan} (h : ¬ s.engineActive c = true) :
    exec (.autostep c) s = .next (s.outputFiltered c).advance := if_neg h

theorem State.outputFiltered_toNat (s : State) (c : Chan) :
    ((s.outputFiltered c).inten.get c).toNat = (s.filt.get c).toNat := by
  have hlt := (s.filt.get c).isLt
  simp only [State.outputFiltered, Quad.get_set_same, BitVec.toNat_setWidth]
  omega

/-- The biased intensity fits its register, whatever the offset (R127). -/
theorem State.outputBiased_toNat (s : State) (c : Chan) :
    (((s.outputBiased c).inten.get c).toNat : Int) = max 0 ((s.filt.get c).toNat + (s.auto.get c).offset.toInt) := by
  have hlt := (s.filt.get c).isLt
  have hoff := (s.auto.get c).offset.toInt_lt
  simp only [State.outputBiased, Quad.get_set_same, AutoState.biased, BitVec.toNat_ofNat]
  omega

theorem encode_autostep (c : Chan) : encode (.autostep c) = 0x42000000 ||| BitVec.ofNat 32 c.val <<< 22 := by
  revert c
  decide

/-- Settles O47: the three causes are those of an engine that is not active. -/
theorem autostepBypass : Obligations.AutostepBypass := by
  refine fun s c => ⟨encode_autostep c, fun h => ?_⟩
  have hidle : ¬ s.engineActive c = true := by
    rw [State.engineActive_iff]
    rintro ⟨hmode, hchan, hfilt⟩
    rcases h with h | h | h
    · simp [hmode] at h
    · exact hchan h
    · omega
  exact .of_advance (exec_autostep_bypass hidle) (s.outputFiltered_frame c) (by simp)
    ⟨s.outputFiltered_toNat c, .set _ _ _⟩

/-! ## AUTOSTEP: steps 1 to 3 (R128, R129) -/

/-- The channel's state after steps 1 to 3. -/
def State.reflectedAuto (s : State) (c : Chan) : AutoState :=
  if (s.advancedAuto c).boundaryHit (s.filt.get c) then (s.advancedAuto c).flip else s.advancedAuto c

/-- A hit turns the direction and nothing else of what steps 1 and 2 leave. -/
theorem State.reflectedAuto_kept (s : State) (c : Chan) (f : Field) (hf : f ≠ .offsetDelta) :
    (s.advancedAuto c).Same (s.reflectedAuto c) f := by
  unfold State.reflectedAuto
  split <;> cases f <;> first | rfl | exact True.intro | exact absurd rfl hf

/-- What steps 1 to 3 leave, over the integers; neither limit's randomization has run. -/
theorem State.reflectedAuto_spec {s : State} (h : EngineInv s) (c : Chan) :
    (s.reflectedAuto c).loopLimit.toNat = s.stepLimit c ∧ (s.reflectedAuto c).offset.toInt = s.stepOffset c ∧
      (s.reflectedAuto c).offsetLimit = (s.auto.get c).offsetLimit ∧
      (s.reflectedAuto c).tOffRand = (s.auto.get c).tOffRand ∧
      (s.reflectedAuto c).tLoopRand = (s.auto.get c).tLoopRand := by
  obtain ⟨-, hlimit, hoffset, -, -, hmax, htoff, htloop⟩ := State.advancedAuto_spec h c
  have kept := s.reflectedAuto_kept c
  have k1 : (s.reflectedAuto c).loopLimit = _ := kept .loopLimit (by decide)
  have k2 : (s.reflectedAuto c).offset = _ := kept .offset (by decide)
  have k3 : (s.reflectedAuto c).offsetLimit = _ := kept .offsetLimit (by decide)
  have k4 : (s.reflectedAuto c).tOffRand = _ := kept .tOffRand (by decide)
  have k5 : (s.reflectedAuto c).tLoopRand = _ := kept .tLoopRand (by decide)
  exact ⟨k1 ▸ hlimit, k2 ▸ hoffset, k3.trans hmax, k4.trans htoff, k5.trans htloop⟩

/-- A state whose channel has what steps 1 to 3 leave, and whose other channels are as before, is an advance. -/
theorem advancesChannel_of_reflected {s t : State} {c : Chan} (h : EngineInv s)
    (hkept : ∀ f ∈ [Field.loopCounter, .ratePend, .offsetDelta], (s.reflectedAuto c).Same (t.auto.get c) f)
    (hauto : OthersKept c s.auto t.auto) (hinten : OthersKept c s.inten t.inten) : AdvancesChannel s c t := by
  obtain ⟨hcount, -, -, hpend, hdelta, -⟩ := State.advancedAuto_spec h c
  have hcount' : (t.auto.get c).loopCounter = (s.advancedAuto c).loopCounter :=
    (s.reflectedAuto_kept c .loopCounter (by decide)).trans (hkept .loopCounter (by simp))
  have hpend' : (t.auto.get c).ratePend = (s.advancedAuto c).ratePend :=
    (s.reflectedAuto_kept c .ratePend (by decide)).trans (hkept .ratePend (by simp))
  have hdelta' : (t.auto.get c).offsetDelta = (s.reflectedAuto c).offsetDelta := hkept .offsetDelta (by simp)
  have hstep : -32767 ≤ (s.auto.get c).offsetDelta.toInt := by
    obtain ⟨-, hd, -⟩ := h.2 c
    have := h.1.engine.fixedStep_le
    omega
  refine ⟨hcount' ▸ hcount, hpend'.trans hpend, fun hhit => ?_, fun hmiss => ?_, hauto, hinten⟩
  · rw [hdelta', State.reflectedAuto, if_pos ((State.advancedAuto_hits h c).2 hhit), ← neg_toInt hstep, ← hdelta]
    rfl
  · rw [hdelta', State.reflectedAuto, if_neg (mt (State.advancedAuto_hits h c).1 hmiss), hdelta]

theorem State.advanceEngine_hit {s : State} (h : EngineInv s) {c : Chan} (hhit : s.StepHits c) :
    s.advanceEngine c = randLoop c s.env.now (randOff c s.env.now (s.setAuto c (s.reflectedAuto c))) := by
  have hb := (State.advancedAuto_hits h c).2 hhit
  rw [State.reflectedAuto, if_pos hb]
  exact if_pos hb

theorem State.advanceEngine_miss {s : State} (h : EngineInv s) {c : Chan} (hmiss : ¬ s.StepHits c) :
    s.advanceEngine c = s.setAuto c (s.reflectedAuto c) := by
  have hb := mt (State.advancedAuto_hits h c).1 hmiss
  rw [State.reflectedAuto, if_neg hb]
  exact if_neg hb

/-! ## AUTOSTEP: step 4, both checks of one advance (R127, R131) -/

/-- A state of channel `c` after both checks at `t`, the offset-size check first. -/
def AutoState.checked (p : Params) (filt : Sample) (t : Time) (oc od lc ld : Nat) (a : AutoState) : AutoState :=
  (a.checkOffset p filt t oc od).checkLoop p t lc ld

/-- The offset-size check does not touch the loop-size check's timestamp. -/
theorem AutoState.checkOffset_tLoopRand (p : Params) (filt : Sample) (t : Time) (coin d : Nat) (a : AutoState) :
    (a.checkOffset p filt t coin d).tLoopRand = a.tLoopRand := AutoState.checkOffset_kept .tLoopRand (by decide)

/-- The answers for the two values lie in their ranges (R125). -/
def LegalAnswers (s : State) (od ld : Nat) : Prop :=
  (loOff s.params ≤ od ∧ od ≤ s.params.offsetLimitMax) ∧ loLoop s.params s.rateMagnitude ≤ ld ∧ ld ≤ s.rateMagnitude

/-- Both checks, with the answers the random source gives. -/
theorem checks_eq {s u : State} {a : AutoState} {t : Time} (hu : s.afterCheck a.tOffRand t = u) (c : Chan) :
    randLoop c t (randOff c t (s.setAuto c a)) = (u.afterCheck a.tLoopRand t).setAuto c
      (a.checked s.params (s.filt.get c) t s.coinDrawn (s.afterDraw.drawn (loOff s.params) s.params.offsetLimitMax)
        u.coinDrawn (u.afterDraw.drawn (loLoop s.params s.rateMagnitude) s.rateMagnitude)) := by
  have hoff : randOff c t (s.setAuto c a) = u.setAuto c
      (a.checkOffset s.params (s.filt.get c) t s.coinDrawn
        (s.afterDraw.drawn (loOff s.params) s.params.offsetLimitMax)) := by
    rw [randOff_eq, ← hu]
    simp [State.coinDrawn]
  obtain ⟨ds, n, hsource⟩ := s.afterCheck_eq_withSource a.tOffRand t
  have hparams : u.params = s.params := by rw [← hu, hsource]; rfl
  have hrate : u.rateMagnitude = s.rateMagnitude := by rw [← hu, hsource]; rfl
  rw [hoff, randLoop_eq]
  simp [AutoState.checked, AutoState.checkOffset_tLoopRand, State.coinDrawn, hparams, hrate]

/-- With injected answers the offset-size check's are taken first. -/
theorem checks_injected {s : State} {a : AutoState} {t : Time} {oc od lc ld : Nat} {rest : List Nat}
    (hdraws : s.env.draws =
      checkDraws s.params a.tOffRand t oc od ++ checkDraws s.params a.tLoopRand t lc ld ++ rest)
    (hoc : oc < s.params.probDen) (hlc : lc < s.params.probDen) (hlegal : LegalAnswers s od ld) (c : Chan) :
    randLoop c t (randOff c t (s.setAuto c a)) =
      (s.withDraws rest).setAuto c (a.checked s.params (s.filt.get c) t oc od lc ld) := by
  obtain ⟨⟨holo, hohi⟩, hllo, hlhi⟩ := hlegal
  obtain ⟨hu, hocoin, hodraw⟩ := State.afterCheck_injected (List.append_assoc _ _ _ ▸ hdraws) hoc
  have hrest : (s.withDraws (checkDraws s.params a.tLoopRand t lc ld ++ rest)).env.draws =
    checkDraws s.params a.tLoopRand t lc ld ++ rest := rfl
  obtain ⟨hw, hlcoin, hldraw⟩ := State.afterCheck_injected hrest hlc
  rw [checks_eq hu, hw]
  unfold AutoState.checked
  rw [AutoState.checkOffset_congr hocoin fun hdue hwin => hodraw hdue hwin holo hohi]
  rw [AutoState.checkLoop_congr (by rwa [AutoState.checkOffset_tLoopRand])
    (by rw [AutoState.checkOffset_tLoopRand]; exact fun hdue hwin => hldraw hdue hwin hllo hlhi)]
  rfl

/-- Any random source answers as some legal injected answers do. -/
theorem checks_answered {s : State} (hp : s.params.Legal) (c : Chan) (a : AutoState) (t : Time) :
    ∃ ds n oc od lc ld, LegalAnswers s od ld ∧ randLoop c t (randOff c t (s.setAuto c a)) =
      (s.withSource ds n).setAuto c (a.checked s.params (s.filt.get c) t oc od lc ld) := by
  obtain ⟨ds, n, hu⟩ := s.afterCheck_eq_withSource a.tOffRand t
  obtain ⟨ds', n', hw⟩ := (s.withSource ds n).afterCheck_eq_withSource a.tLoopRand t
  have hrate := (State.rateMagnitude_bounds hp.speed).1
  refine ⟨ds', n', _, _, _, _, ⟨?_, ?_⟩, (checks_eq hu c).trans (by rw [hw]; rfl)⟩
  · exact State.drawn_bounds _ (loOff_le hp.engine)
  · exact State.drawn_bounds _ (loLoop_bounds hp.engine hrate).2

/-! ## AUTOSTEP: the whole advance (R127) -/

/-- Every element of the channels' state, and the intensities. -/
def advanceFields : List Field :=
  [.loopCounter, .loopLimit, .ratePend, .offset, .offsetDelta, .offsetLimit, .tOffRand, .tLoopRand, .inten]

/-- What an advance with a boundary hit leaves, over the integers, when the two checks get the answers `oc`, `od` and
`lc`, `ld`. -/
structure HitOutcome (s : State) (c : Chan) (oc od lc ld : Nat) (t : State) : Prop where
  advances : AdvancesChannel s c t
  tOffRand : (t.auto.get c).tOffRand = if s.OffsetCheckDue c then s.env.now else (s.auto.get c).tOffRand
  tLoopRand : (t.auto.get c).tLoopRand = if s.LoopCheckDue c then s.env.now else (s.auto.get c).tLoopRand
  offsetLimit : (t.auto.get c).offsetLimit.toNat =
    if s.OffsetCheckDue c ∧ oc < s.params.probNum then min od (intCap s.params (s.filt.get c).toNat)
    else (s.auto.get c).offsetLimit.toNat
  offset : (t.auto.get c).offset.toInt =
    if s.OffsetCheckDue c ∧ oc < s.params.probNum then
      clampOffset (s.stepOffset c) (min od (intCap s.params (s.filt.get c).toNat))
    else s.stepOffset c
  loopLimit : (t.auto.get c).loopLimit.toNat =
    if s.LoopCheckDue c ∧ lc < s.params.probNum then ld else s.stepLimit c
  inten : ((t.inten.get c).toNat : Int) = max 0 ((s.filt.get c).toNat + (t.auto.get c).offset.toInt)

/-- Steps 1 to 3, both checks on what they leave, and the output. -/
theorem hitOutcome_of_checked {s t : State} {c : Chan} {oc od lc ld : Nat} (h : EngineInv s)
    (hlegal : LegalAnswers s od ld)
    (hget : t.auto.get c = (s.reflectedAuto c).checked s.params (s.filt.get c) s.env.now oc od lc ld)
    (hauto : OthersKept c s.auto t.auto) (hothers : OthersKept c s.inten t.inten)
    (hinten : ((t.inten.get c).toNat : Int) = max 0 ((s.filt.get c).toNat + (t.auto.get c).offset.toInt)) :
    HitOutcome s c oc od lc ld t := by
  obtain ⟨⟨-, hod⟩, -, hld⟩ := hlegal
  have hod' : od ≤ 32767 := hod.trans h.1.engine.offsetLimitMax_le
  have hld' : ld < 2 ^ 32 :=
    (hld.trans (State.rateMagnitude_bounds h.1.speed).2).trans_lt (loopMax_lt h.1.speed)
  obtain ⟨hlimit, hoffset, hmax, htoff, htloop⟩ := State.reflectedAuto_spec h c
  obtain ⟨vlimit, voffset⟩ := AutoState.checkOffset_values (p := s.params) (filt := s.filt.get c) (t := s.env.now)
    (coin := oc) (a := s.reflectedAuto c) hod'
  have hloop (f : Field) (hf : f ∉ [Field.loopLimit, .tLoopRand]) :
      ((s.reflectedAuto c).checkOffset s.params (s.filt.get c) s.env.now oc od).Same (t.auto.get c) f := by
    rw [hget]
    exact AutoState.checkLoop_kept f hf
  have e1 : (t.auto.get c).tOffRand = _ := hloop .tOffRand (by decide)
  have e2 : (t.auto.get c).offsetLimit = _ := hloop .offsetLimit (by decide)
  have e3 : (t.auto.get c).offset = _ := hloop .offset (by decide)
  refine ⟨advancesChannel_of_reflected h (fun f hf => ?_) hauto hothers, ?_, ?_, ?_, ?_, ?_, hinten⟩
  · refine (AutoState.checkOffset_kept f ?_).trans (hloop f ?_) <;> fin_cases hf <;> decide
  · rw [e1, AutoState.checkOffset_tOffRand, htoff]
  · rw [hget, AutoState.checked, AutoState.checkLoop_tLoopRand, AutoState.checkOffset_tLoopRand, htloop]
  · rw [e2, vlimit, htoff, hmax]
  · rw [e3, voffset, htoff, hoffset]
  · have k : ((s.reflectedAuto c).checkOffset s.params (s.filt.get c) s.env.now oc od).loopLimit = _ :=
      AutoState.checkOffset_kept .loopLimit (by decide)
    rw [hget, AutoState.checked, AutoState.checkLoop_loopLimit hld', AutoState.checkOffset_tLoopRand, htloop, k, hlimit]

/-- An advance with a boundary hit, when its two checks leave the channel and the random source as given. -/
theorem completes_autostep_hit {s : State} {c : Chan} {oc od lc ld : Nat} {ds : List Nat} {n : Nat} (h : EngineInv s)
    (hactive : s.engineActive c = true) (hhit : s.StepHits c) (hlegal : LegalAnswers s od ld)
    (hchecks : randLoop c s.env.now (randOff c s.env.now (s.setAuto c (s.reflectedAuto c))) =
      (s.withSource ds n).setAuto c
        ((s.reflectedAuto c).checked s.params (s.filt.get c) s.env.now oc od lc ld))
    {l : List Field} (hl : OnlyChanges l s (s.withSource ds n)) (hpc : .pc ∉ l) :
    Completes (.autostep c) s (advanceFields ++ l) fun t => HitOutcome s c oc od lc ld t ∧ t.env.draws = ds := by
  have hexec := exec_autostep_active hactive
  rw [State.advanceEngine_hit h hhit, hchecks] at hexec
  refine .of_advance hexec ?_ (by simp [advanceFields, hpc]) ⟨hitOutcome_of_checked h hlegal ?_ ?_ ?_ ?_, rfl⟩
  · refine (OnlyChanges.right hl).trans (OnlyChanges.left ?_)
    exact ((State.setAuto_frame _ _ _).mono (by simp [advanceFields])).trans
      ((State.outputBiased_frame _ _).mono (by simp [advanceFields]))
  · exact Quad.get_set_same _ _ _
  · exact .set _ _ _
  · exact .set _ _ _
  · exact State.outputBiased_toNat _ c

/-- Settles O50: the first half is `RandLoop`'s check; in an advance the two checks take the injected answers in
order. -/
theorem randLoopDrawsOncePerCooldown : Obligations.RandLoopDrawsOncePerCooldown := by
  refine ⟨fun c t s coin d rest h hdraws hcoin hlo hhi => randLoop_draws_once h hdraws hcoin hlo hhi, ?_⟩
  intro s c oc od lc ld rest h hmode hchan hfilt hhit hoc holo hohi hlc hllo hlhi hdraws
  have hlegal : LegalAnswers s od ld := ⟨⟨holo, hohi⟩, hllo, hlhi⟩
  obtain ⟨-, -, -, htoff, htloop⟩ := State.reflectedAuto_spec h c
  have hchecks := checks_injected (a := s.reflectedAuto c) (t := s.env.now) (rest := rest)
    (by rw [htoff, htloop]; exact hdraws) hoc hlc hlegal c
  obtain ⟨t, hexec, hpc, hframe, hout, hrest⟩ := completes_autostep_hit (n := s.env.freeIx) h
    ((s.engineActive_iff c).2 ⟨hmode, hchan, hfilt⟩) hhit hlegal hchecks (s.withDraws_frame rest) (by decide)
  exact ⟨t, hexec, hpc, hframe, hout.advances, hrest, hout.tOffRand, hout.tLoopRand, hout.offsetLimit, hout.offset,
    hout.loopLimit, hout.inten⟩

/-- Without a hit, and with both cooldowns running, step 4 draws nothing. -/
theorem State.advanceEngine_unchecked {s : State} (h : EngineInv s) {c : Chan}
    (hidle : ¬ s.StepHits c ∨ (¬ s.OffsetCheckDue c ∧ ¬ s.LoopCheckDue c)) :
    s.advanceEngine c = s.setAuto c (s.reflectedAuto c) := by
  by_cases hhit : s.StepHits c
  · obtain ⟨hoff, hloop⟩ := hidle.resolve_left (not_not_intro hhit)
    obtain ⟨-, -, -, htoff, htloop⟩ := State.reflectedAuto_spec h c
    have hu : s.afterCheck (s.reflectedAuto c).tOffRand s.env.now = s := if_neg (htoff ▸ hoff)
    have hw : s.afterCheck (s.reflectedAuto c).tLoopRand s.env.now = s := if_neg (htloop ▸ hloop)
    rw [State.advanceEngine_hit h hhit, checks_eq hu, hw, AutoState.checked,
      AutoState.checkOffset_running (htoff ▸ Nat.lt_of_not_le hoff),
      AutoState.checkLoop_running (htloop ▸ Nat.lt_of_not_le hloop)]
  · exact State.advanceEngine_miss h hhit

/-- Settles O48: an advance without checks leaves what steps 1 to 3 do; one with checks does for any random source what
it does for some legal answers. -/
theorem autostepAdvancesAndReflects : Obligations.AutostepAdvancesAndReflects := by
  intro s c h hmode hchan hfilt
  have hactive := (s.engineActive_iff c).2 ⟨hmode, hchan, hfilt⟩
  refine ⟨fun hidle => ?unchecked, fun hhit => ?checked⟩
  case unchecked =>
    obtain ⟨hlimit, hoffset, hmax, htoff, htloop⟩ := State.reflectedAuto_spec h c
    have hexec := exec_autostep_active hactive
    rw [State.advanceEngine_unchecked h hidle] at hexec
    have hget : (((s.setAuto c (s.reflectedAuto c)).outputBiased c).advance.auto.get c) = s.reflectedAuto c :=
      Quad.get_set_same _ _ _
    have hinten := State.outputBiased_toNat (s.setAuto c (s.reflectedAuto c)) c
    rw [State.setAuto_auto, Quad.get_set_same, hoffset] at hinten
    refine .of_advance hexec ?_ (by decide)
      ⟨advancesChannel_of_reflected h (fun f hf => ?_) (.set _ _ _) (.set _ _ _),
      (congrArg (·.loopLimit.toNat) hget).trans hlimit, (congrArg (·.offset.toInt) hget).trans hoffset, hinten⟩
    · refine (OnlyChanges.setAuto fun f hf => ?_).trans ((State.outputBiased_frame _ c).mono (by simp))
      cases f <;> first
        | exact True.intro
        | exact hmax
        | exact htoff
        | exact htloop
        | exact absurd (by simp) hf
    · rw [hget]
      fin_cases hf <;> rfl
  case checked =>
    obtain ⟨ds, n, oc, od, lc, ld, hlegal, hchecks⟩ := checks_answered h.1 c (s.reflectedAuto c) s.env.now
    obtain ⟨t, hexec, hpc, hframe, hout, -⟩ :=
      completes_autostep_hit h hactive hhit hlegal hchecks (s.withSource_frame ds n) (by decide)
    obtain ⟨⟨holo, hohi⟩, hllo, hlhi⟩ := hlegal
    refine ⟨t, hexec, hpc, hframe, hout.advances, hout.tOffRand, hout.tLoopRand, ?_, ?_, hout.inten⟩
    · have hlimit := hout.offsetLimit
      have hoffset := hout.offset
      by_cases hdone : s.OffsetCheckDue c ∧ oc < s.params.probNum
      · rw [if_pos hdone] at hlimit hoffset
        rw [← hlimit] at hoffset
        exact .inr ⟨hdone.1, by omega, by omega, hoffset⟩
      · rw [if_neg hdone] at hlimit hoffset
        exact .inl ⟨BitVec.eq_of_toNat_eq hlimit, hoffset⟩
    · have hlimit := hout.loopLimit
      by_cases hdone : s.LoopCheckDue c ∧ lc < s.params.probNum
      · rw [if_pos hdone] at hlimit
        exact .inr ⟨hdone.1, hlimit ▸ hllo, hlimit ▸ hlhi⟩
      · exact .inl (hlimit.trans (if_neg hdone))

end Machine

end Sys2Proof
end


section
/-! CHINIT (43_auto_mode.md R134): each channel is created with two draws, and the four are created in order. -/

namespace Sys2Proof.Machine

/-- The auto-mode state of the channel created next: the loop limit drawn, then the offset limit. -/
def State.createdAuto (s : State) : AutoState where
  loopCounter := 0
  loopLimit := BitVec.ofNat 32 (s.drawn (loLoop s.params (loopMax s.params)) (loopMax s.params))
  offset := 0
  offsetDelta := BitVec.ofNat 16 s.params.fixedStep
  offsetLimit := BitVec.ofNat 16 (s.afterDraw.drawn (loOff s.params) s.params.offsetLimitMax)
  tLoopRand := s.env.now
  tOffRand := s.env.now
  ratePend := false

theorem createChannel_eq (c : Chan) (s : State) :
    createChannel c s = s.afterDraw.afterDraw.setAuto c s.createdAuto := by
  simp only [createChannel, State.createdAuto, State.afterDraw_params]

@[simp] theorem createChannel_params (c : Chan) (s : State) : (createChannel c s).params = s.params := by
  simp [createChannel_eq]

@[simp] theorem createChannel_now (c : Chan) (s : State) : (createChannel c s).env.now = s.env.now := by
  simp [createChannel_eq]

@[simp] theorem createChannel_get (c d : Chan) (s : State) :
    (createChannel c s).auto.get d = if d = c then s.createdAuto else s.auto.get d := by
  simp [createChannel_eq, Quad.get_set]

/-- A created state: the fixed values, and both limits in their ranges. -/
structure Created (p : Params) (now : Time) (b : AutoState) : Prop where
  loopCounter : b.loopCounter = 0
  offset : b.offset = 0
  offsetDelta : b.offsetDelta.toInt = p.fixedStep
  tLoopRand : b.tLoopRand = now
  tOffRand : b.tOffRand = now
  ratePend : b.ratePend = false
  loopLimit : loLoop p (loopMax p) ≤ b.loopLimit.toNat ∧ b.loopLimit.toNat ≤ loopMax p
  offsetLimit : loOff p ≤ b.offsetLimit.toNat ∧ b.offsetLimit.toNat ≤ p.offsetLimitMax

/-- The registers hold the two values drawn. -/
theorem State.createdAuto_limits {s : State} (hp : s.params.Legal) :
    s.createdAuto.loopLimit.toNat = s.drawn (loLoop s.params (loopMax s.params)) (loopMax s.params) ∧
      s.createdAuto.offsetLimit.toNat = s.afterDraw.drawn (loOff s.params) s.params.offsetLimitMax := by
  have hlt := loopMax_lt hp.speed
  have hmax := hp.engine.offsetLimitMax_le
  have hloop := s.drawn_bounds (loLoop_bounds hp.engine (loopMax_pos hp.speed)).2
  have hoff := s.afterDraw.drawn_bounds (loOff_le hp.engine)
  exact ⟨Nat.mod_eq_of_lt (by omega), Nat.mod_eq_of_lt (by omega)⟩

theorem State.createdAuto_created {s : State} (hp : s.params.Legal) : Created s.params s.env.now s.createdAuto := by
  obtain ⟨hloop, hoff⟩ := State.createdAuto_limits hp
  exact
    { loopCounter := rfl
      offset := rfl
      offsetDelta := fixedStep_toInt hp.engine
      tLoopRand := rfl
      tOffRand := rfl
      ratePend := rfl
      loopLimit := hloop ▸ s.drawn_bounds (loLoop_bounds hp.engine (loopMax_pos hp.speed)).2
      offsetLimit := hoff ▸ s.afterDraw.drawn_bounds (loOff_le hp.engine) }

/-- Creating a channel takes two injected answers: the loop limit, then the offset limit. -/
theorem createChannel_injected {s : State} (hp : s.params.Legal) {loop off : Nat} {rest : List Nat}
    (h : s.env.draws = loop :: off :: rest)
    (hloop : loLoop s.params (loopMax s.params) ≤ loop ∧ loop ≤ loopMax s.params)
    (hoff : loOff s.params ≤ off ∧ off ≤ s.params.offsetLimitMax) (c : Chan) :
    (createChannel c s).env.draws = rest ∧ s.createdAuto.loopLimit.toNat = loop ∧
      s.createdAuto.offsetLimit.toNat = off := by
  have hnext : s.afterDraw.env.draws = off :: rest := by rw [State.afterDraw_injected h]; rfl
  obtain ⟨hl, ho⟩ := State.createdAuto_limits hp
  rw [createChannel_eq, State.afterDraw_injected hnext]
  exact ⟨rfl, hl.trans (State.drawn_injected h hloop.1 hloop.2),
    ho.trans (State.drawn_injected hnext hoff.1 hoff.2)⟩

theorem exec_chinit (s : State) :
    exec .chinit s = .next (State.advance { createChannels s with speedValid := false }) := rfl

theorem State.setSpeedValid_frame (s : State) (b : Bool) : OnlyChanges [.speedValid] s { s with speedValid := b } := by
  intro f hf
  cases f <;> first | rfl | exact fun _ => rfl | exact absurd (by simp) hf

/-- Each channel has the state drawn for it after those of the channels before it. -/
theorem createChannels_auto (s : State) :
    let s1 := createChannel 0 s
    let s2 := createChannel 1 s1
    let s3 := createChannel 2 s2
    (createChannels s).auto = ⟨s.createdAuto, s1.createdAuto, s2.createdAuto, s3.createdAuto⟩ := by
  refine Quad.ext_get (Chan.forall_iff.2 ⟨?_, ?_, ?_, ?_⟩) <;> simp [createChannels] <;> rfl

theorem createChannels_created {s : State} (hp : s.params.Legal) (c : Chan) :
    Created s.params s.env.now ((createChannels s).auto.get c) := by
  have hcreated {u : State} (hu : u.params = s.params) (hn : u.env.now = s.env.now) :
      Created s.params s.env.now u.createdAuto := hu ▸ hn ▸ State.createdAuto_created (hu ▸ hp)
  rw [createChannels_auto]
  revert c
  refine Chan.forall_iff.2 ⟨hcreated rfl rfl, hcreated ?_ ?_, hcreated ?_ ?_, hcreated ?_ ?_⟩ <;> simp

/-- Settles O51: the four channels are created in order, each with its two draws. -/
theorem chinitCreatesTheAutoState : Obligations.ChinitCreatesTheAutoState := by
  refine ⟨by decide, fun s hp => ⟨?ranges, fun loops offs rest hdraws hlegal => ?injected⟩⟩
  case ranges =>
    refine .of_advance (exec_chinit s) ?_ (by decide) ⟨rfl, fun c => ?_⟩
    · exact ((createChannels_frame s).mono (by simp [engineFields])).trans
        ((State.setSpeedValid_frame _ _).mono (by simp))
    · have h := createChannels_created hp c
      exact ⟨h.loopCounter, h.offset, h.offsetDelta, h.tLoopRand, h.tOffRand, h.ratePend, h.loopLimit.1,
        h.loopLimit.2, h.offsetLimit.1, h.offsetLimit.2⟩
  case injected =>
    have hstep {u : State} (hu : u.params = s.params) (c : Chan) {ds : List Nat}
        (hd : u.env.draws = loops.get c :: offs.get c :: ds) :=
      have ⟨hl1, hl2, ho1, ho2⟩ := hlegal c
      createChannel_injected (hu ▸ hp) hd (by rw [hu]; exact ⟨hl1, hl2⟩) (by rw [hu]; exact ⟨ho1, ho2⟩) c
    obtain ⟨d0, v0⟩ := hstep rfl 0 hdraws
    obtain ⟨d1, v1⟩ := hstep (by simp) 1 d0
    obtain ⟨d2, v2⟩ := hstep (by simp) 2 d1
    obtain ⟨d3, v3⟩ := hstep (by simp) 3 d2
    have hlimits : ∀ c, ((createChannels s).auto.get c).loopLimit.toNat = loops.get c ∧
        ((createChannels s).auto.get c).offsetLimit.toNat = offs.get c := by
      rw [createChannels_auto]
      exact Chan.forall_iff.2 ⟨v0, v1, v2, v3⟩
    exact ⟨_, exec_chinit s, d3, hlimits⟩

end Sys2Proof.Machine
end

section
/-! The duty controller (44_duty_controller.md): the curve and its look-up, the normalization to the budget, and the
operations of the PWM lines. -/

namespace Sys2Proof.Machine

/-! ## The curve (R141) -/

theorem curve_le_ceil (p : Params) (i : Nat) : curve p i ≤ p.dutyCeil := Nat.min_le_left _ _

theorem floor_le_curve {p : Params} (h : p.dutyFloor ≤ p.dutyCeil) (i : Nat) : p.dutyFloor ≤ curve p i :=
  Nat.le_min.2 ⟨h, Nat.le_add_right _ _⟩

theorem curve_zero {p : Params} (h : p.dutyFloor ≤ p.dutyCeil) : curve p 0 = p.dutyFloor := by
  simpa [curve] using h

theorem curve_mono (p : Params) {i j : Nat} (h : i ≤ j) : curve p i ≤ curve p j := by
  have hsq : i * i * p.curveNum ≤ j * j * p.curveNum := Nat.mul_le_mul_right _ (Nat.mul_le_mul h h)
  have hquot := Nat.div_le_div_right (c := p.curveDen) hsq
  exact min_le_min_left _ (Nat.add_le_add_left hquot _)

/-- The curve has reached its ceiling once the quotient covers the way from the floor. -/
theorem curve_saturates {p : Params} (hden : 1 ≤ p.curveDen) {i : Nat}
    (h : (p.dutyCeil - p.dutyFloor) * p.curveDen ≤ i * i * p.curveNum) : curve p i = p.dutyCeil := by
  have hquot : p.dutyCeil - p.dutyFloor ≤ i * i * p.curveNum / p.curveDen := (Nat.le_div_iff_mul_le hden).2 h
  exact Nat.min_eq_left (by omega)

/-- With legal parameters an entry of the table holds the curve's value uncut: it lies below the 32-bit period. -/
theorem dutyLut_toNat {p : Params} (h : p.DutyLegal) (i : BitVec 16) : (dutyLut p i).toNat = curve p i.toNat := by
  obtain ⟨-, hperiod, -, hceil, -⟩ := h
  have hle := curve_le_ceil p i.toNat
  rw [dutyLut, BitVec.toNat_ofNat, Nat.mod_eq_of_lt (by omega)]

/-- Settles O52: the curve is the lesser of the ceiling and a quotient that grows with `i`. -/
theorem curveIsMonotoneAndSaturates : Obligations.CurveIsMonotoneAndSaturates := by
  intro p hp
  obtain ⟨-, -, hfloor, hceil, hden, -⟩ := id hp
  exact ⟨dutyLut_toNat hp, fun _ => rfl, curve_zero hfloor, fun _ _ => curve_mono p,
    fun i => ⟨floor_le_curve hfloor i, curve_le_ceil p i, (curve_le_ceil p i).trans_lt hceil⟩,
    fun _ => curve_saturates hden⟩

/-! ## The look-up (R142, R143) -/

/-- The encoding of `DCRV.R`: opcode 0x50, the channel in bits 23:22 (30_encoding.md R60, R62). -/
theorem encode_dcrvR (c : Chan) : encode (.dcrvR c) = 0x50000000 ||| BitVec.ofNat 32 c.val <<< 22 := by
  revert c
  decide

/-- The encoding of `DCRV.I`: opcode 0x51, the channel in bits 23:22, the intensity in bits 15:0 (30_encoding.md R60,
R62). -/
theorem encode_dcrvI (c : Chan) (x : BitVec 16) :
    encode (.dcrvI c x) = 0x51000000 ||| BitVec.ofNat 32 c.val <<< 22 ||| x.setWidth 32 := by
  have hhead : ∀ c : Chan, (0x51#8 ++ chBits c).setWidth 32 <<< (6 + 16) ||| (0#6).setWidth 32 <<< 16 =
      (0x51000000 ||| BitVec.ofNat 32 c.val <<< 22 : Word) := by decide
  rw [← hhead c, ← BitVec.setWidth_append_append_eq_shiftLeft_setWidth_or]
  exact (BitVec.setWidth_eq _).symm

/-- A step that looks up `x` for channel `c` gives it the curve's duty and leaves the other channels theirs. -/
theorem completes_dcrv {i : Instr} {s : State} {c : Chan} {x : BitVec 16} (hp : s.params.DutyLegal)
    (h : exec i s = .next (State.advance { s with duty := s.duty.set c (dutyLut s.params x) })) :
    Completes i s [.duty] fun t =>
      (t.duty.get c).toNat = curve s.params x.toNat ∧ OthersKept c s.duty t.duty :=
  .of_advance h (s.setDuty_frame _) (by decide)
    ⟨(congrArg BitVec.toNat (Quad.get_set_same _ _ _)).trans (dutyLut_toNat hp x), .set _ _ _⟩

/-- Settles O53: both forms are the same look-up, at the channel's intensity or at the immediate. -/
theorem dcrvLooksUpTheDuty : Obligations.DcrvLooksUpTheDuty := fun _ c x =>
  ⟨encode_dcrvR c, encode_dcrvI c x, fun hp => ⟨completes_dcrv hp rfl, completes_dcrv hp rfl⟩⟩

/-! ## The normalization (R144) -/

/-- Four numbers scaled by `b / S`, their sum being `S`: each quotient loses less than one, so together they reach `b`
but for 3 at most, and never pass it. -/
theorem sum_scaled_bounds {w x y z S : Nat} (hS : w + x + y + z = S) (hpos : 0 < S) (b : Nat) :
    w * b / S + x * b / S + y * b / S + z * b / S ≤ b ∧
      b ≤ w * b / S + x * b / S + y * b / S + z * b / S + 3 := by
  have hquot (a : Nat) : S * (a * b / S) ≤ a * b ∧ a * b < S * (a * b / S) + S :=
    ⟨Nat.mul_div_le _ _, Nat.lt_mul_div_succ _ hpos⟩
  have hsum : w * b + x * b + y * b + z * b = S * b := by rw [← hS]; ring
  have hw := hquot w
  have hx := hquot x
  have hy := hquot y
  have hz := hquot z
  constructor
  · refine Nat.le_of_mul_le_mul_left ?_ hpos
    simp only [Nat.mul_add]
    omega
  · refine Nat.le_of_lt_add_one (Nat.lt_of_mul_lt_mul_left (a := S) ?_)
    simp only [Nat.mul_add]
    omega

theorem scaled_le {b S : Nat} (h : b ≤ S) (d : Nat) : d * b / S ≤ d :=
  Nat.div_le_of_le_mul (Nat.mul_comm d b ▸ Nat.mul_le_mul_right d h)

theorem normalize_within {b : Nat} {q : Quad (BitVec 32)} (h : dutySum q ≤ b) : normalize b q = q :=
  if_neg (Nat.not_lt.2 h)

/-- Above the budget every entry is scaled: the quotient, no larger than the entry, fits its 32 bits. -/
theorem normalize_above {b : Nat} {q : Quad (BitVec 32)} (h : b < dutySum q) (c : Chan) :
    ((normalize b q).get c).toNat = (q.get c).toNat * b / dutySum q := by
  have hle := scaled_le h.le (q.get c).toNat
  have hlt := (q.get c).isLt
  rw [normalize, if_pos h, Quad.get_map, BitVec.toNat_ofNat, Nat.mod_eq_of_lt (by omega)]

theorem dutySum_normalize_above {b : Nat} {q : Quad (BitVec 32)} (h : b < dutySum q) :
    dutySum (normalize b q) ≤ b ∧ b ≤ dutySum (normalize b q) + 3 := by
  have hsum : dutySum (normalize b q) = (q.get 0).toNat * b / dutySum q + (q.get 1).toNat * b / dutySum q +
      (q.get 2).toNat * b / dutySum q + (q.get 3).toNat * b / dutySum q := by
    simp only [← normalize_above h]
    rfl
  rw [hsum]
  exact sum_scaled_bounds rfl (Nat.zero_lt_of_lt h) b

theorem dutySum_normalize_le (b : Nat) (q : Quad (BitVec 32)) : dutySum (normalize b q) ≤ b := by
  rcases Nat.lt_or_ge b (dutySum q) with h | h
  · exact (dutySum_normalize_above h).1
  · exact (normalize_within h).symm ▸ h

theorem normalize_get_le (b : Nat) (q : Quad (BitVec 32)) (c : Chan) :
    ((normalize b q).get c).toNat ≤ (q.get c).toNat := by
  rcases Nat.lt_or_ge b (dutySum q) with h | h
  · exact normalize_above h c ▸ scaled_le h.le _
  · rw [normalize_within h]

theorem normalize_keeps_order (b : Nat) {q : Quad (BitVec 32)} {c d : Chan}
    (hcd : (q.get c).toNat ≤ (q.get d).toNat) :
    ((normalize b q).get c).toNat ≤ ((normalize b q).get d).toNat := by
  rcases Nat.lt_or_ge b (dutySum q) with h | h
  · rw [normalize_above h, normalize_above h]
    exact Nat.div_le_div_right (Nat.mul_le_mul_right b hcd)
  · rwa [normalize_within h]

theorem State.setNduty_frame (s : State) (q : Quad (BitVec 32)) : OnlyChanges [.nduty] s { s with nduty := q } := by
  intro f hf
  cases f <;> first | rfl | exact fun _ => rfl | exact absurd (by simp) hf

theorem exec_dnorm (s : State) :
    exec .dnorm s = .next (State.advance { s with nduty := normalize s.params.budget s.duty }) := rfl

/-- Settles O54: the entries of a sum above the budget are scaled by one fraction, and any other sum stands. -/
theorem dnormKeepsTheBudget : Obligations.DnormKeepsTheBudget := by
  refine ⟨by decide, fun s _ => .of_advance (exec_dnorm s) (s.setNduty_frame _) (by decide) ?_⟩
  exact ⟨normalize_within, fun h => ⟨normalize_above h, (dutySum_normalize_above h).2⟩,
    dutySum_normalize_le _ _, normalize_get_le _ _, fun _ _ => normalize_keeps_order _⟩

/-! ## PWMAPPLY (R145) -/

/-- The encoding of `PWMAPPLY`: opcode 0x53, the channel in bits 23:22 (30_encoding.md R60, R62). -/
theorem encode_pwmapply (c : Chan) : encode (.pwmapply c) = 0x53000000 ||| BitVec.ofNat 32 c.val <<< 22 := by
  revert c
  decide

theorem State.mustApply_iff (s : State) (c : Chan) :
    s.mustApply c = true ↔ s.appliedValid.get c = false ∨ s.nduty.get c ≠ s.applied.get c := by
  simp [State.mustApply]

theorem exec_pwmapply_unheld {s : State} {c : Chan} (h : s.pwm.held.get c = false) :
    exec (.pwmapply c) s = s.trap ⟨.access, BitVec.ofNat 32 (0x10000 + c.val)⟩ := if_pos h

theorem exec_pwmapply_writes {s : State} {c : Chan} (hheld : s.pwm.held.get c = true)
    (h : s.appliedValid.get c = false ∨ s.nduty.get c ≠ s.applied.get c) :
    exec (.pwmapply c) s = .next (s.applyDuty c).advance :=
  (if_neg (by simp [hheld])).trans (if_pos ((s.mustApply_iff c).2 h))

theorem exec_pwmapply_kept {s : State} {c : Chan} (hheld : s.pwm.held.get c = true)
    (hv : s.appliedValid.get c = true) (h : s.nduty.get c = s.applied.get c) :
    exec (.pwmapply c) s = .next s.advance :=
  (if_neg (by simp [hheld])).trans (if_neg (by simp [State.mustApply_iff, hv, h]))

theorem State.setApplied_frame (s : State) (q : Quad (BitVec 32)) (v : Quad Bool) :
    OnlyChanges [.applied, .appliedValid] s { s with applied := q, appliedValid := v } := by
  intro f hf
  cases f <;> first | rfl | exact fun _ => rfl | exact absurd (by simp) hf

theorem State.applyDuty_frame (s : State) (c : Chan) :
    OnlyChanges [.pwmPeriod, .pwmDuty, .pwmWrites, .applied, .appliedValid, .freeIx] s (s.applyDuty c) :=
  ((s.pwmWrite_frame c _).mono (by simp)).trans ((State.setApplied_frame _ _ _).mono (by simp))

/-- A write counts one more, and takes no free value, while the count fits its 64 bits. -/
theorem State.applyDuty_count {s : State} (h : s.pwm.writes.toNat + 1 < 2 ^ 64) (c : Chan) :
    (s.applyDuty c).pwm.writes.toNat = s.pwm.writes.toNat + 1 ∧ (s.applyDuty c).env.freeIx = s.env.freeIx := by
  have hnext : s.nextPwmWrites = s.pwm.writes + 1 := if_pos h
  refine ⟨?_, if_pos h⟩
  change s.nextPwmWrites.toNat = _
  rw [hnext, BitVec.toNat_add_of_lt h]
  rfl

theorem State.applyDuty_period {s : State} (h : s.params.DutyLegal) (c : Chan) :
    ((s.applyDuty c).pwm.period.get c).toNat = s.params.pwmPeriod := by
  obtain ⟨-, hperiod, -⟩ := h
  change ((s.pwm.period.set c _).get c).toNat = _
  rw [Quad.get_set_same, BitVec.toNat_ofNat, Nat.mod_eq_of_lt hperiod]

/-- Settles O55: the line is written and the value recorded exactly when `State.mustApply` says so. -/
theorem pwmapplyWritesOnlyChanges : Obligations.PwmapplyWritesOnlyChanges := by
  refine fun s c => ⟨encode_pwmapply c, fun h => ?unheld, fun hheld h hp => ?writes, fun hheld hv h => ?kept⟩
  case unheld => exact .of_trap (exec_pwmapply_unheld h)
  case writes =>
    refine .of_advance (exec_pwmapply_writes hheld h) (s.applyDuty_frame c) (by decide) ?_
    exact ⟨State.applyDuty_period hp c, Quad.get_set_same _ _ _, fun hlt => State.applyDuty_count hlt c,
      Quad.get_set_same _ _ _, Quad.get_set_same _ _ _, .set _ _ _, .set _ _ _, .set _ _ _, .set _ _ _⟩
  case kept => exact .of_advance (exec_pwmapply_kept hheld hv h) (OnlyChanges.refl _ _) (by decide) trivial

/-! ## PWMACQ and PWMREL (R146, R147) -/

/-- The lines held once those of `ks` are acquired too. -/
def heldWith (ks : List Chan) (held : Quad Bool) : Quad Bool := ks.foldl (fun q k => q.set k true) held

theorem heldWith_get (ks : List Chan) (held : Quad Bool) (j : Chan) :
    (heldWith ks held).get j = if j ∈ ks then true else held.get j := by
  induction ks generalizing held with
  | nil => rfl
  | cons k ks ih =>
    have hstep : heldWith (k :: ks) held = heldWith ks (held.set k true) := rfl
    rw [hstep, ih, Quad.get_set]
    by_cases hj : j ∈ ks <;> simp [hj]

/-- Lines that answer are acquired, and the rest is tried from there. -/
theorem acquireLines_append {js : List Chan} {s : State} (h : ∀ j ∈ js, s.env.pwmOk.get j = true) (ks : List Chan) :
    acquireLines (js ++ ks) s = acquireLines ks { s with pwm.held := heldWith js s.pwm.held } := by
  induction js generalizing s with
  | nil => rfl
  | cons j js ih =>
    obtain ⟨hj, hjs⟩ := List.forall_mem_cons.1 h
    exact (if_pos hj).trans (ih hjs)

/-- The lines in order, the ones below line `k` first. -/
theorem lines_split (k : Chan) : ∃ js ks : List Chan, [0, 1, 2, 3] = js ++ k :: ks ∧ ∀ j, j ∈ js ↔ j < k :=
  ⟨(List.finRange 4).take k, (List.finRange 4).drop (k + 1), by revert k; decide⟩

theorem exec_pwmacq_all {s : State} (h : ∀ k, s.env.pwmOk.get k = true) :
    exec .pwmacq s = .next (State.advance { s with pwm.held := heldWith [0, 1, 2, 3] s.pwm.held }) :=
  acquireLines_append (js := [0, 1, 2, 3]) (fun k _ => h k) []

/-- The first line that does not answer faults, in the state in which those before it are held. -/
theorem exec_pwmacq_refused {s : State} {js ks : List Chan} {k : Chan} (hsplit : [0, 1, 2, 3] = js ++ k :: ks)
    (h : ∀ j ∈ js, s.env.pwmOk.get j = true) (hk : s.env.pwmOk.get k = false) :
    exec .pwmacq s =
      State.trap { s with pwm.held := heldWith js s.pwm.held } ⟨.pwmFail, BitVec.ofNat 32 k.val⟩ := by
  change acquireLines [0, 1, 2, 3] s = _
  rw [hsplit, acquireLines_append h]
  exact if_neg (by simp [hk])

theorem exec_pwmrel (s : State) : exec .pwmrel s = .next (State.advance { s with pwm.held := .fill false }) := rfl

/-- Settles O56: the lines below the lowest refused one are acquired first, and all are when none is refused. -/
theorem pwmLinesAcquiredAndReleased : Obligations.PwmLinesAcquiredAndReleased := by
  refine ⟨by decide, by decide, fun s => ⟨fun h => ?acquired, fun k hk hbelow => ?refused, ?released⟩⟩
  case acquired =>
    refine .of_advance (exec_pwmacq_all h) (s.setHeld_frame _) (by decide) fun k => ?_
    have hmem : ∀ k : Chan, k ∈ [0, 1, 2, 3] := by decide
    exact (heldWith_get _ _ k).trans (if_pos (hmem k))
  case refused =>
    obtain ⟨js, ks, hsplit, hjs⟩ := lines_split k
    refine ⟨_, heldWith js s.pwm.held, exec_pwmacq_refused hsplit (fun j hj => hbelow j ((hjs j).1 hj)) hk,
      State.raise_faultEntered _ _ _, fun j => ?_⟩
    simp only [heldWith_get, hjs]
  case released =>
    exact .of_advance (exec_pwmrel s) (s.setHeld_frame _) (by decide) fun k => Quad.get_fill false k

end Sys2Proof.Machine
end

section
/-! The sequencer (45_sequencer.md): its step as the execution of the fetched operation, the configuration test, the
jumps, `SLEEP`, `HALT` and `DBGLINE`, and the median update that a configuration without a window size refuses. -/

namespace Sys2Proof.Machine

/-! ## Fetch and execute (R150) -/

theorem State.fetch_of_decode {s : State} {w : Word} {i : Instr} (hw : s.prog[s.pc]? = some w)
    (h : decode w = .ok i) : s.fetch = .ok i := by
  simp only [State.fetch, hw, h]

/-- While not halted, SEQ's turn is exec of what the fetch answers. -/
theorem seqTurn_of_fetch {s : State} {i : Instr} (hr : s.run ≠ .halted) (h : s.fetch = .ok i) :
    seqTurn s = exec i s := by
  rw [seqTurn, if_neg hr, h]

/-- Settles O5: the turn taken off the script leaves `pc` and `PROG`, so the fetch answers the word's operation. -/
theorem stepRunsTheDecodedInstruction : Obligations.StepRunsTheDecodedInstruction := by
  intro s w i hn hr hw hd
  have hf : s.dropTurn.fetch = .ok i := (State.fetch_congr rfl rfl).trans (State.fetch_of_decode hw hd)
  calc step s = seqTurn s.dropTurn := step_of_nextTurn hn
    _ = exec i s.dropTurn := seqTurn_of_fetch (s.dropTurn_run ▸ hr) hf

/-! ## The configuration (R152) -/

theorem windowSized_eq_false_iff (s : State) :
    s.windowSized = false ↔ ¬ (1 ≤ s.cfg.n.toNat ∧ s.cfg.n.toNat ≤ 65535) := by
  rw [← windowSized_iff, Bool.not_eq_true]

theorem exec_meduI_refused {s : State} (hs : s.windowSized = false) (c : Chan) (x : Sample) :
    exec (.meduI c x) s = .refused .windowSizeUnspecified := if_neg (by simp [hs])

/-- Settles O42: `MEDU.R` with a sample is `MEDU.I` of that sample, and without a window size that is refused. -/
theorem meduRefusesAnUnspecifiedWindow : Obligations.MeduRefusesAnUnspecifiedWindow := by
  intro s c x hn
  have hs : s.windowSized = false := (windowSized_eq_false_iff s).2 (by omega)
  exact ⟨exec_meduI_refused hs c x, fun hv => (exec_meduR_valid hv).trans (exec_meduI_refused hs c _)⟩

/-- CFGCHK's first test fails exactly on a divider outside 1..65534. -/
theorem clkDiv_refused_iff (s : State) : (s.cfg.clkDiv.toNat < 1 ∨ Config.clkDivMax < s.cfg.clkDiv.toNat) ↔
    ¬ (1 ≤ s.cfg.clkDiv.toNat ∧ s.cfg.clkDiv.toNat ≤ 65534) := by
  rw [Config.clkDivMax]
  omega

section
variable {s : State}

theorem exec_cfgchk_badDivider (hdiv : ¬ (1 ≤ s.cfg.clkDiv.toNat ∧ s.cfg.clkDiv.toNat ≤ 65534)) :
    exec .cfgchk s = s.trap ⟨.badCfg, 1⟩ := if_pos ((clkDiv_refused_iff s).2 hdiv)

/-- Past the first test, the second decides. -/
theorem exec_cfgchk_legalDivider (hdiv : 1 ≤ s.cfg.clkDiv.toNat ∧ s.cfg.clkDiv.toNat ≤ 65534) :
    exec .cfgchk s = if avgCode s.cfg.avg = none then s.trap ⟨.badCfg, 2⟩
      else if s.windowSized = false then s.trap ⟨.badCfg, 3⟩ else .next s.advance :=
  if_neg fun h => (clkDiv_refused_iff s).1 h hdiv

theorem exec_cfgchk_badAverage (hdiv : 1 ≤ s.cfg.clkDiv.toNat ∧ s.cfg.clkDiv.toNat ≤ 65534)
    (havg : s.cfg.avg.toNat ∉ [1, 2, 4, 8, 16]) : exec .cfgchk s = s.trap ⟨.badCfg, 2⟩ :=
  (exec_cfgchk_legalDivider hdiv).trans (if_pos ((avgCode_eq_none_iff _).2 havg))

/-- Past the second test, the third decides. -/
theorem exec_cfgchk_legalAverage (hdiv : 1 ≤ s.cfg.clkDiv.toNat ∧ s.cfg.clkDiv.toNat ≤ 65534)
    (havg : s.cfg.avg.toNat ∈ [1, 2, 4, 8, 16]) :
    exec .cfgchk s = if s.windowSized = false then s.trap ⟨.badCfg, 3⟩ else .next s.advance :=
  (exec_cfgchk_legalDivider hdiv).trans (if_neg fun h => (avgCode_eq_none_iff _).1 h havg)

end

/-- Settles O57: a test decides only when those before it pass. -/
theorem cfgchkFirstFailingTest : Obligations.CfgchkFirstFailingTest := by
  refine ⟨by decide, fun s => ?_⟩
  refine ⟨fun hdiv => ?divider, fun hdiv havg => ?average, fun hdiv havg hn => ?window, fun hdiv havg hn => ?legal⟩
  case divider => exact .of_trap (exec_cfgchk_badDivider hdiv)
  case average => exact .of_trap (exec_cfgchk_badAverage hdiv havg)
  case window =>
    have hs := (windowSized_eq_false_iff s).2 hn
    exact .of_trap ((exec_cfgchk_legalAverage hdiv havg).trans (if_pos hs))
  case legal =>
    have hs : ¬ s.windowSized = false := fun h => (windowSized_eq_false_iff s).1 h hn
    exact .of_advance ((exec_cfgchk_legalAverage hdiv havg).trans (if_neg hs)) (.refl _ _) (by decide) trivial

/-! ## The jumps (R153, R154) -/

/-- Format J: the opcode in bits 31:24, the target in bits 15:0 (30_encoding.md R60). -/
theorem formatJ_eq (opc : BitVec 8) (tgt : BitVec 16) :
    opc ++ 0#8 ++ tgt = (opc.setWidth 32 <<< 24 ||| tgt.setWidth 32 : Word) := by
  calc opc ++ 0#8 ++ tgt = (opc ++ 0#8 ++ tgt).setWidth 32 := (BitVec.setWidth_eq _).symm
    _ = opc.setWidth 32 <<< (8 + 16) ||| (0#8).setWidth 32 <<< 16 ||| tgt.setWidth 32 :=
      BitVec.setWidth_append_append_eq_shiftLeft_setWidth_or
    _ = opc.setWidth 32 <<< 24 ||| tgt.setWidth 32 := congrArg (· ||| _) BitVec.or_zero

theorem State.setPc_frame (s : State) (n : Nat) : OnlyChanges [.pc] s { s with pc := n } := by
  intro f hf
  cases f <;> first | rfl | exact fun _ => rfl | exact absurd (by simp) hf

theorem exec_jmp (tgt : BitVec 16) (s : State) : exec (.jmp tgt) s = .next { s with pc := tgt.toNat } := rfl

/-- With a stop requested `BSTOP` is `JMP`. -/
theorem exec_bstop_requested {s : State} (h : s.env.stopReq = true) (tgt : BitVec 16) :
    exec (.bstop tgt) s = exec (.jmp tgt) s := if_pos h

theorem exec_bstop_unrequested {s : State} (h : s.env.stopReq = false) (tgt : BitVec 16) :
    exec (.bstop tgt) s = .next s.advance := if_neg (by simp [h])

/-- Settles O58: `BSTOP` is `JMP` when a stop is requested, and only moves on otherwise. -/
theorem jumpsGoToTheTarget : Obligations.JumpsGoToTheTarget := by
  intro s tgt
  have hjmp : ∃ t, exec (.jmp tgt) s = .next t ∧ t.pc = tgt.toNat ∧ OnlyChanges [.pc] s t :=
    ⟨_, exec_jmp tgt s, rfl, s.setPc_frame _⟩
  exact ⟨formatJ_eq 0x61#8 tgt, formatJ_eq 0x62#8 tgt, hjmp, fun h => exec_bstop_requested h tgt ▸ hjmp,
    fun h => .of_advance (exec_bstop_unrequested h tgt) (.refl _ _) (by decide) trivial⟩

/-! ## SLEEP (R155) -/

theorem exec_sleep_zero {s : State} (hp : s.phase = .idle) (h : s.cfg.sleep = 0) :
    exec .sleep s = .next s.advance := by
  change execSleep s = _
  simp only [execSleep, hp, if_pos h]

theorem exec_sleep_start {s : State} (hp : s.phase = .idle) (h : s.cfg.sleep ≠ 0) :
    exec .sleep s = .next (s.startWait .sleeping) := by
  change execSleep s = _
  simp only [execSleep, hp, if_neg h]

theorem exec_sleep_wait {s : State} {t0 : Time} (hp : s.phase = .sleeping t0) :
    exec .sleep s = .next (s.endWait t0 s.cfg.sleep.toNat) := by
  change execSleep s = _
  rw [execSleep, hp]

/-- An operation whose step is the end of a wait inside the time input's range completes, RUNNING, with the instant
reached; only time has passed (10_state.md R36). -/
theorem Completes.of_endWait {i : Instr} {s : State} {t0 : Time} {delay : Nat}
    (h : exec i s = .next (s.endWait t0 delay)) (hlt : t0.toNat + delay < 2 ^ 64) :
    Completes i s [.run, .phase, .now, .freeIx] fun t =>
      t.run = .running ∧ t.phase = .idle ∧ t0.toNat + delay ≤ t.env.now.toNat ∧
        s.env.now.toNat ≤ t.env.now.toNat := by
  have hu := s.passTime_frame (t0.toNat + delay)
  obtain ⟨hback, hreached⟩ := s.passTime_now (t0.toNat + delay)
  exact .of_advance (u := { s.passTime (t0.toNat + delay) with run := .running, phase := .idle })
    (h.trans (congrArg _ (s.endWait_of_lt hlt)))
    ((hu.mono (by simp)).trans ((State.moveSeq_frame _ .running .idle).mono (by simp))) (by decide)
    ⟨rfl, rfl, hreached hlt, hback⟩

/-- Settles O59: with an interval the wait starts by noting the time and ends by the passing of time. -/
theorem sleepWaitsTheInterval : Obligations.SleepWaitsTheInterval := by
  refine ⟨by decide, fun s => ⟨fun hp h => ?zero, fun hp h => ?start, fun _ hp => .of_endWait (exec_sleep_wait hp)⟩⟩
  case zero => exact .of_advance (exec_sleep_zero hp h) (.refl _ _) (by decide) trivial
  case start =>
    have hne : s.cfg.sleep ≠ 0 := BitVec.toNat_ne_iff_ne.1 (Nat.ne_of_gt h)
    exact ⟨_, exec_sleep_start hp hne, (s.moveSeq_frame _ _).mono (by simp), rfl, rfl⟩

/-! ## HALT and DBGLINE (R156, R157) -/

theorem exec_halt (s : State) : exec .halt s = .next { s with faultRegs.exitStatus := 0, run := .halted } := rfl

theorem State.exit_frame (s : State) (e : BitVec 8) (r : RunState) :
    OnlyChanges [.run, .exitStatus] s { s with faultRegs.exitStatus := e, run := r } := by
  intro f hf
  cases f <;> first | rfl | exact fun _ => rfl | exact absurd (by simp) hf

theorem exec_dbgline_off {s : State} (h : s.cfg.debug = false) : exec .dbgline s = .next s.advance :=
  if_neg (by simp [h])

theorem exec_dbgline_on {s : State} (h : s.cfg.debug = true) :
    exec .dbgline s = .next (State.advance { s with debug := s.debug ++ [s.debugRecord] }) := if_pos h

theorem State.setDebug_frame (s : State) (rs : List DebugRecord) : OnlyChanges [.debug] s { s with debug := rs } := by
  intro f hf
  cases f <;> first | rfl | exact fun _ => rfl | exact absurd (by simp) hf

theorem State.debugRecord_channel (s : State) (c : Chan) : s.debugRecord.channels.get c = s.debugChannel c :=
  Quad.get_ofFn _ c

/-- Settles O60: `HALT` writes `run` and `exitStatus`, and `DBGLINE` appends the record of every channel. -/
theorem haltAndDebugLine : Obligations.HaltAndDebugLine := by
  refine ⟨by decide, by decide, fun s => ⟨?halt, fun h => ?off, fun h => ?on⟩⟩
  case halt => exact ⟨_, exec_halt s, s.exit_frame 0 .halted, rfl, rfl⟩
  case off => exact .of_advance (exec_dbgline_off h) (.refl _ _) (by decide) trivial
  case on =>
    exact .of_advance (exec_dbgline_on h) (s.setDebug_frame _) (by decide)
      ⟨s.debugRecord, rfl, rfl, rfl, s.debugRecord_channel⟩

end Sys2Proof.Machine
end

section
/-! Fault entry (60_exceptions.md R170, R176), and the block in HALTED: no operation executes, and only the host's reset
leaves it (R177). -/

namespace Sys2Proof.Machine

/-- Settles O7: `State.raise` is fault entry from every state; the codes are read off the table. -/
theorem faultEntryIsPrecise : Obligations.FaultEntryIsPrecise :=
  ⟨State.raise_faultEntered, rfl⟩

/-! ## In HALTED -/

/-- What the agents beside the sequencer write, a reset apart: CONV, CLKL, ENV and the host's stop request (20_memory.md
R51). -/
def otherAgentFields : List Field := [.fifo, .pend, .clkOn, .now, .stopReq]

/-- SEQ executes no operation (R177). -/
theorem seqTurn_of_halted {s : State} (hr : s.run = .halted) : seqTurn s = .next s := if_pos hr

/-- In HALTED a turn that is no reset writes what the other agents write: SEQ's writes nothing. -/
theorem takeTurn_of_halted {s : State} {turn : Turn} (hr : s.run = .halted) (hn : ∀ h, turn ≠ .reset h) :
    ∃ t, takeTurn turn s = .next t ∧ OnlyChanges otherAgentFields s t := by
  cases turn with
  | seq => exact ⟨s, seqTurn_of_halted hr, .refl _ s⟩
  | conv k x => exact ⟨s.convert k x, rfl, (s.convert_frame k x).mono (by decide)⟩
  | clkl => exact ⟨s.latchClock, rfl, s.latchClock_frame.mono (by decide)⟩
  | tick d => exact ⟨s.tick d, rfl, (s.tick_frame d).mono (by decide)⟩
  | stop => exact ⟨s.requestStop, rfl, s.requestStop_frame.mono (by decide)⟩
  | reset h => exact absurd rfl (hn h)

/-- The fault registers are kept when each of the four is. -/
theorem OnlyChanges.faultRegs {l : List Field} {s t : State} (h : OnlyChanges l s t)
    (hl : ∀ f ∈ [Field.fault, .faultPc, .faultInfo, .exitStatus], f ∉ l) : t.faultRegs = s.faultRegs := by
  have same := fun f hf => h f (hl f hf)
  exact (FaultRegs.mk.injEq ..).mpr
    ⟨same .fault (by decide), same .faultPc (by decide), same .faultInfo (by decide), same .exitStatus (by decide)⟩

/-- Settles O8: in HALTED SEQ's turn is idle, the other agents' frames miss `run`, `pc` and the fault registers, and a
reset loads them. -/
theorem haltedBlockExecutesNothing : Obligations.HaltedBlockExecutesNothing := by
  refine fun s hr => ⟨fun hn => ?seq, fun hn => ?stays, fun h hn => ?reset⟩
  case seq => exact (step_of_nextTurn hn).trans (seqTurn_of_halted hr)
  case stays =>
    obtain ⟨t, ht, hf⟩ := takeTurn_of_halted (s := s.dropTurn) hr hn
    have hframe : OnlyChanges [.fifo, .pend, .clkOn, .now, .stopReq, .script] s t :=
      (s.dropTurn_frame.mono (by decide)).trans (hf.mono (by decide))
    exact ⟨t, (step_of_nextTurn rfl).trans ht, (hframe .run (by decide)).trans hr, hframe .pc (by decide),
      hframe.faultRegs (by decide), hframe⟩
  case reset => exact ⟨s.dropTurn.hostReset h, step_of_nextTurn hn, rfl, rfl⟩

end Sys2Proof.Machine
end

section
/-! Reset (70_reset_and_hazards.md R190 to R192): the state the machine starts in, and the host's reset at any point of
a run. -/

namespace Sys2Proof

/-- The reference set P0 meets every constraint (00_scope.md R5). -/
theorem Params.p0_legal : Params.p0.Legal := by decide

namespace Machine

/-! ## The host's reset during a run -/

@[simp] theorem State.hostReset_auto_get (s : State) (h : HostLoad) (c : Chan) :
    (s.hostReset h).auto.get c = .atReset s.params := Quad.get_fill _ c

/-- With a legal `cfgN` every channel gets N slots of `INIT_SAMPLE` (10_state.md R26). -/
theorem State.hostReset_win_get (s : State) {h : HostLoad} (hn : 1 ≤ h.cfg.n.toNat ∧ h.cfg.n.toNat ≤ 65535) (c : Chan) :
    (s.hostReset h).win.get c = List.replicate h.cfg.n.toNat s.params.initSample :=
  (Quad.get_fill _ c).trans (if_pos hn)

/-- Settles O18: the reset turn is taken whatever the state, and `State.hostReset` writes each element of R190 without
reading the block's own state. -/
theorem hostResetAtAnyPoint : Obligations.HostResetAtAnyPoint := by
  refine fun s h hn => ⟨s.dropTurn.hostReset h, step_of_nextTurn hn, ?loaded, ?block, fun c => ?channel,
    fun c => ?engine, fun c h1 h2 => ?window, ?untouched⟩
  case loaded => exact ⟨rfl, rfl, rfl, rfl, rfl⟩
  case block => exact ⟨rfl, rfl, rfl, rfl, rfl, rfl, rfl, rfl, rfl, rfl, rfl, rfl, rfl⟩
  case channel => simp only [State.hostReset, Quad.get_fill, and_self]
  case engine =>
    rw [State.hostReset_auto_get]
    exact ⟨rfl, rfl, rfl, fixedStep_toInt, rfl, rfl, rfl, rfl⟩
  case window => exact s.dropTurn.hostReset_win_get ⟨h1, h2⟩ c
  case untouched => exact ⟨rfl, rfl, rfl, rfl, rfl⟩

/-! ## The state after reset -/

@[simp] theorem State.reset_auto_get (c : Chan) : State.reset.auto.get c = .atReset .p0 := Quad.get_fill _ c

theorem LegalScript.reset : LegalScript State.reset := fun _ hm => absurd hm List.not_mem_nil

theorem EngineInv.reset : EngineInv State.reset := by
  refine ⟨Params.p0_legal, fun c => ?_⟩
  rw [State.reset_auto_get]
  exact AutoState.atReset_bounded Params.p0_legal

theorem SequencerInv.reset : SequencerInv State.reset :=
  .of_inStep (i := .halt) ⟨trivial, rfl⟩ (.inl rfl) rfl (Nat.zero_le _) (by decide)

/-- Settles O17: the values are read off `State.reset`, the invariants are the three lemmas above and
`Memory.wf_reset`. -/
theorem resetValuesAndInvariants : Obligations.ResetValuesAndInvariants := by
  refine ⟨?block, fun c => ?channel, fun c => ?engine, ⟨?legalMin, ?legalMax, fun c => ?window⟩, rfl,
    Memory.wf_reset, .reset, .reset, .reset⟩
  case block => exact ⟨rfl, rfl, rfl, rfl, rfl, rfl, rfl, rfl, rfl, rfl, rfl, rfl, rfl⟩
  case channel => simp only [State.reset, Quad.get_fill, and_self]
  case engine =>
    rw [State.reset_auto_get]
    exact ⟨rfl, rfl, rfl, fixedStep_toInt Params.p0_legal.engine, rfl, rfl, rfl, rfl⟩
  case legalMin => decide
  case legalMax => decide
  case window => exact Quad.get_fill _ c

end Machine

end Sys2Proof
end

section
/-! The round trip between words and operations (30_encoding.md R60, R62, R63, R68): every instruction is read back from
its encoding, and every word the decoder accepts is the encoding of what it reads. -/

namespace Sys2Proof

/-! ## From the instruction to the word and back -/

/-- A word of format J is read as its target. -/
theorem decodeJ_append (o : BitVec 8) (tgt : BitVec 16) (f : BitVec 16 → Instr) :
    decodeJ (o ++ 0#8 ++ tgt) f = .ok (f tgt) :=
  whenZero_eq_ok.2 ⟨extract_middle o 0#8 tgt, congrArg f (extract_low (o ++ 0#8) tgt)⟩

/-- The decoder reads back every instruction: each field of its word holds what was put there. The words without an
operand and those with a channel alone are few, and evaluated. -/
theorem decode_encode (i : Instr) : decode (encode i) = .ok i := by
  cases i with
  | rdb off =>
    have hopc : opcOf (encode (.rdb off)) = 0x11#8 := extract_high 0x11#8 off 0#8
    have hoff : off16Of (encode (.rdb off)) = off := extract_middle 0x11#8 off 0#8
    rw [decode_rdb hopc, whenZero_eq_ok, hoff]
    exact ⟨extract_low (0x11#8 ++ off) 0#8, rfl⟩
  | wrb off val =>
    have hopc : opcOf (encode (.wrb off val)) = 0x12#8 := extract_high 0x12#8 off val
    have hoff : off16Of (encode (.wrb off val)) = off := extract_middle 0x12#8 off val
    have hval : val8Of (encode (.wrb off val)) = val := extract_low (0x12#8 ++ off) val
    rw [decode_wrb hopc, hoff, hval]
  | adctrig mask =>
    have hopc : opcOf (encode (.adctrig mask)) = 0x22#8 := extract_high 0x22#8 0#20 mask
    have hmask : mask4Of (encode (.adctrig mask)) = mask := extract_low (0x22#8 ++ 0#20) mask
    rw [decode_adctrig hopc, whenZero_eq_ok, hmask]
    exact ⟨extract_middle 0x22#8 0#20 mask, rfl⟩
  | meduI ch imm =>
    have hopc : opcOf (encode (.meduI ch imm)) = 0x31#8 := extract_high_of_four 0x31#8 (chBits ch) 0#10 imm
    have hch : chOf (encode (.meduI ch imm)) = ch :=
      congrArg BitVec.toFin (extract_second_of_four 0x31#8 (chBits ch) 0#10 imm)
    have himm : imm12Of (encode (.meduI ch imm)) = imm := extract_low (0x31#8 ++ chBits ch ++ 0#10) imm
    rw [decode_meduI hopc, whenZero_eq_ok, hch, himm]
    exact ⟨extract_middle (0x31#8 ++ chBits ch) 0#10 imm, rfl⟩
  | dcrvI ch imm =>
    have hopc : opcOf (encode (.dcrvI ch imm)) = 0x51#8 := extract_high_of_four 0x51#8 (chBits ch) 0#6 imm
    have hch : chOf (encode (.dcrvI ch imm)) = ch :=
      congrArg BitVec.toFin (extract_second_of_four 0x51#8 (chBits ch) 0#6 imm)
    have himm : imm16Of (encode (.dcrvI ch imm)) = imm := extract_low (0x51#8 ++ chBits ch ++ 0#6) imm
    rw [decode_dcrvI hopc, whenZero_eq_ok, hch, himm]
    exact ⟨extract_middle (0x51#8 ++ chBits ch) 0#6 imm, rfl⟩
  | jmp tgt =>
    have hopc : opcOf (encode (.jmp tgt)) = 0x61#8 := extract_high 0x61#8 0#8 tgt
    exact (decode_jmp hopc).trans (decodeJ_append 0x61#8 tgt .jmp)
  | bstop tgt =>
    have hopc : opcOf (encode (.bstop tgt)) = 0x62#8 := extract_high 0x62#8 0#8 tgt
    exact (decode_bstop hopc).trans (decodeJ_append 0x62#8 tgt .bstop)
  -- format C
  | meduR ch | autostep ch | dcrvR ch | pwmapply ch =>
    revert ch
    decide
  -- format Z
  | openMap | rdfifo | closeMap | adcinit | adcdrain | adcsettle | adcharv | adcstop | adcshut | modedet | rateupd
  | chinit | dnorm | pwmacq | pwmrel | cfgchk | sleep | dbgline | halt => rfl

/-- Settles O1: the round trip at every constructor of the instruction. -/
theorem decodeOfEncodeIsTheInstruction : Obligations.DecodeOfEncodeIsTheInstruction := decode_encode

/-! ## From the word to the instruction and back -/

/-- A bit vector is its two fields joined. -/
theorem append_two_extracts {a b : Nat} (w : BitVec (a + b)) : w.extractLsb' b a ++ w.extractLsb' 0 b = w := by
  rw [BitVec.extractLsb'_append_extractLsb'_eq_extractLsb' (Nat.zero_add b).symm, BitVec.extractLsb'_eq_self]

/-- A bit vector is its three fields joined. -/
theorem append_three_extracts {a b c : Nat} (w : BitVec (a + b + c)) :
    w.extractLsb' (c + b) a ++ w.extractLsb' c b ++ w.extractLsb' 0 c = w := by
  rw [BitVec.extractLsb'_append_extractLsb'_eq_extractLsb' rfl, append_two_extracts]

/-- A bit vector is its four fields joined. -/
theorem append_four_extracts {a b c d : Nat} (w : BitVec (a + b + c + d)) :
    w.extractLsb' (d + c + b) a ++ w.extractLsb' (d + c) b ++ w.extractLsb' d c ++ w.extractLsb' 0 d = w := by
  rw [BitVec.extractLsb'_append_extractLsb'_eq_extractLsb' rfl, append_three_extracts]

/-- The opcode field of a word is the number the decoder switches on. -/
theorem opcOf_eq_ofNat {w : Word} {o : Nat} (ho : (opcOf w).toNat = o) : opcOf w = BitVec.ofNat 8 o := by
  rw [← ho, BitVec.ofNat_toNat, BitVec.setWidth_eq]

section Formats

variable {w : Word} {o : Nat} {i : Instr} (ho : (opcOf w).toNat = o)
include ho

/-- A word of format Z is its opcode and zeros. -/
theorem encode_of_decodeZ {j : Instr} (h : decodeZ w j = .ok i) (he : encode j = BitVec.ofNat 8 o ++ 0#24 := by rfl) :
    encode i = w := by
  obtain ⟨hz, rfl⟩ := whenZero_eq_ok.1 h
  rw [he, ← opcOf_eq_ofNat ho, ← hz]
  exact append_two_extracts (a := 8) (b := 24) w

/-- A word of format C is its opcode, its channel and zeros. -/
theorem encode_of_decodeC {f : Chan → Instr} (h : decodeC w f = .ok i)
    (he : ∀ c, encode (f c) = BitVec.ofNat 8 o ++ chBits c ++ 0#22 := by exact fun _ => rfl) : encode i = w := by
  obtain ⟨hz, rfl⟩ := whenZero_eq_ok.1 h
  rw [he, ← opcOf_eq_ofNat ho, ← hz]
  exact append_three_extracts (a := 8) (b := 2) (c := 22) w

/-- A word of format J is its opcode, zeros and its target. -/
theorem encode_of_decodeJ {f : BitVec 16 → Instr} (h : decodeJ w f = .ok i)
    (he : ∀ t, encode (f t) = BitVec.ofNat 8 o ++ 0#8 ++ t := by exact fun _ => rfl) : encode i = w := by
  obtain ⟨hz, rfl⟩ := whenZero_eq_ok.1 h
  rw [he, ← opcOf_eq_ofNat ho, ← hz]
  exact append_three_extracts (a := 8) (b := 8) (c := 16) w

end Formats

/-- A word the decoder accepts is the encoding of what it reads: at each opcode the fields read and the must-be-zero
field are all of the word. -/
theorem encode_of_decode {w : Word} {i : Instr} (h : decode w = .ok i) : encode i = w := by
  unfold decode at h
  split at h
  case h_31 => exact nomatch h
  case h_2 ho =>
    obtain ⟨hz, rfl⟩ := whenZero_eq_ok.1 h
    rw [encode, ← hz, ← opcOf_eq_ofNat ho]
    exact append_three_extracts (a := 8) (b := 16) (c := 8) w
  case h_3 ho =>
    obtain rfl := Except.ok.inj h
    rw [encode, ← opcOf_eq_ofNat ho]
    exact append_three_extracts (a := 8) (b := 16) (c := 8) w
  case h_8 ho =>
    obtain ⟨hz, rfl⟩ := whenZero_eq_ok.1 h
    rw [encode, ← hz, ← opcOf_eq_ofNat ho]
    exact append_three_extracts (a := 8) (b := 20) (c := 4) w
  case h_14 ho =>
    obtain ⟨hz, rfl⟩ := whenZero_eq_ok.1 h
    rw [encode, ← hz, ← opcOf_eq_ofNat ho]
    exact append_four_extracts (a := 8) (b := 2) (c := 10) (d := 12) w
  case h_20 ho =>
    obtain ⟨hz, rfl⟩ := whenZero_eq_ok.1 h
    rw [encode, ← hz, ← opcOf_eq_ofNat ho]
    exact append_four_extracts (a := 8) (b := 2) (c := 6) (d := 16) w
  -- format C
  case h_13 ho | h_17 ho | h_19 ho | h_22 ho => exact encode_of_decodeC ho h
  -- format J
  case h_26 ho | h_27 ho => exact encode_of_decodeJ ho h
  -- format Z
  all_goals
    next ho => exact encode_of_decodeZ ho h

/-- Settles O2: the word is put together again from the fields the decoder read and those it found 0. -/
theorem encodeOfDecodeIsTheWord : Obligations.EncodeOfDecodeIsTheWord := fun _ _ => encode_of_decode

/-- Settles O4: the fifteen words are evaluated. -/
theorem wordsOfTheSpecDecode : Obligations.WordsOfTheSpecDecode := by
  unfold Obligations.WordsOfTheSpecDecode
  decide

end Sys2Proof
end
